-- ==== Sys2Proof/Word.lean ====
section
/-! DEFINITION. Word: the types of rules R8 to R10 (00_scope.md). A Byte has 8 bits, a Word packs four bytes into 32
bits, a Block is four words (one column of the 4x4 state each), a Schedule is the 60 words of the expanded-key memory. -/

namespace Sys2Proof

/-- A Byte (rule R9): eight bits, bit `i` the coefficient of `x^i`. -/
abbrev Byte := BitVec 8

/-- A 32-bit register value, or the packed form of four bytes (rules R9 and R10). -/
abbrev Word := BitVec 32

/-- Sixteen bytes as four words: column `c` of the 4x4 state is word `c` (rules R46 and R47). -/
abbrev Block := Vector Word 4

/-- The 60 words of the expanded-key memory `W` (rule R50). -/
abbrev Schedule := Vector Word 60

/-- The eight key registers KEY[0..7] (rule R44). -/
abbrev KeyRegs := Vector Word 8

/-- A host transaction in format H (rule R111): bit 44 `we`, bits 43:32 `off`, bits 31:0 `data`. -/
abbrev Transaction := BitVec 45

end Sys2Proof
end

