-- ==== Sys2Proof/Config.lean ====
section
/-! DEFINITION. Config: what the spec leaves open for an implementation. It holds free values only, each an opaque
constant with no body, so that no proof can see which value an implementation gives. -/

namespace Sys2Proof

/-- The `n`-th free draw of a host read whose value rule R56 (10_state.md) leaves unspecified while BUSY = 1: a read of
STATE, RK, GF_R or EKEY (all 32 bits), or of the STATUS fields KEY_VALID, NK, NR and CURSOR (the draw's bits at those
fields' places). 93_implementation_defined.md item 1: "any value". DESIGN CHOICE (log 2). -/
opaque Config.busyRead : Nat → Word

/-
CMD_LATENCY (rules R7 and R331) is not a constant here: it "may differ per command and per run" and the spec has the
model take it "by the ordering of the completion step among host steps". That ordering is the list `events` of the state
(log 1), so a statement about every state is a statement about every latency.
-/

end Sys2Proof
end

