-- ==== Sys2Proof/Syntax.lean ====
section
/-! DEFINITION. Syntax: one constructor per row of spec/opcode_table.json, in the table's order: the 22 commands of rule
R115 (30_encoding.md) and the two host transactions of rules R85 and R86 (20_memory.md). -/

namespace Sys2Proof

/-- What the two agents can do: the core's commands (formats C0 and C1, rules R112 and R113) and the host's
transactions (format H, rule R111). Every operand that is not a field here is an implicit register (rule R114). -/
inductive Instr where
  /-- NOP, word 0x00000000 (R265). -/
  | nop
  /-- GF_BITTEST, word 0x00000001 (R150). -/
  | gfBittest
  /-- GF_XTIME, word 0x00000002 (R151). -/
  | gfXtime
  /-- GF_MUL, word 0x00000003 (R152). -/
  | gfMul
  /-- GF_INV, word 0x00000004 (R153). -/
  | gfInv
  /-- GF_SBOX, word 0x00000005 (R180). -/
  | gfSbox
  /-- GF_INVSBOX, word 0x00000006 (R181). -/
  | gfInvsbox
  /-- KEY_EXPAND, word 0x00000010 (R200). -/
  | keyExpand
  /-- RK_RESET_FWD, word 0x00000011 (R201). -/
  | rkResetFwd
  /-- RK_RESET_BWD, word 0x00000012 (R202). -/
  | rkResetBwd
  /-- RK_NEXT_ENC, word 0x00000013 (R203). -/
  | rkNextEnc
  /-- RK_NEXT_DEC, word 0x00000014 (R204). -/
  | rkNextDec
  /-- RK_LOAD N, word 0x00000N15 (R205): `n` is the round-key index N of rule R114, 0..15 (log 10). -/
  | rkLoad (n : Nat)
  /-- SUB_BYTES, word 0x00000020 (R240). -/
  | subBytes
  /-- INV_SUB_BYTES, word 0x00000021 (R241). -/
  | invSubBytes
  /-- SHIFT_ROWS, word 0x00000022 (R242). -/
  | shiftRows
  /-- INV_SHIFT_ROWS, word 0x00000023 (R243). -/
  | invShiftRows
  /-- MIX_COLUMNS, word 0x00000024 (R244). -/
  | mixColumns
  /-- INV_MIX_COLUMNS, word 0x00000025 (R245). -/
  | invMixColumns
  /-- ADD_ROUND_KEY, word 0x00000026 (R246). -/
  | addRoundKey
  /-- ENC_BLOCK, word 0x00000030 (R266). -/
  | encBlock
  /-- DEC_BLOCK, word 0x00000031 (R267). -/
  | decBlock
  /-- HOST_READ, `we` = 0: `HostRead(off)` (R85). The transaction's data bits are ignored (R111). -/
  | hostRead (off : BitVec 12)
  /-- HOST_WRITE, `we` = 1: `HostWrite(off, data)` (R86). -/
  | hostWrite (off : BitVec 12) (data : Word)
deriving DecidableEq, Repr

end Sys2Proof
end

