-- ==== Sys2Proof/WellFormed.lean ====
section
/-! DEFINITION. WellFormed: which terms of Instr an encoding exists for. The offset and the data of a transaction carry
their widths in their types; RK_LOAD's index is a number, so its range is checked here. -/

namespace Sys2Proof

/-- The term has an encoding: RK_LOAD's index is "an unsigned round-key index 0..15" (rule R114). -/
def Instr.wellFormed : Instr → Bool
  | .nop => true
  | .gfBittest => true
  | .gfXtime => true
  | .gfMul => true
  | .gfInv => true
  | .gfSbox => true
  | .gfInvsbox => true
  | .keyExpand => true
  | .rkResetFwd => true
  | .rkResetBwd => true
  | .rkNextEnc => true
  | .rkNextDec => true
  | .rkLoad n => decide (n ≤ 15)
  | .subBytes => true
  | .invSubBytes => true
  | .shiftRows => true
  | .invShiftRows => true
  | .mixColumns => true
  | .invMixColumns => true
  | .addRoundKey => true
  | .encBlock => true
  | .decBlock => true
  | .hostRead _ => true
  | .hostWrite _ _ => true

/-- The term is a command word of the core (formats C0 and C1), not a host transaction (format H) (rule R110). -/
def Instr.isCommand : Instr → Bool
  | .nop => true
  | .gfBittest => true
  | .gfXtime => true
  | .gfMul => true
  | .gfInv => true
  | .gfSbox => true
  | .gfInvsbox => true
  | .keyExpand => true
  | .rkResetFwd => true
  | .rkResetBwd => true
  | .rkNextEnc => true
  | .rkNextDec => true
  | .rkLoad _ => true
  | .subBytes => true
  | .invSubBytes => true
  | .shiftRows => true
  | .invShiftRows => true
  | .mixColumns => true
  | .invMixColumns => true
  | .addRoundKey => true
  | .encBlock => true
  | .decBlock => true
  | .hostRead _ => false
  | .hostWrite _ _ => false

end Sys2Proof
end

