-- ==== Sys2Proof/Decode.lean ====
section
/-! DEFINITION. Decode: the two encoded forms of rule R110 (30_encoding.md), read by the mask and match of rule R116,
total on every command word and every transaction; and after it the encoder. -/

namespace Sys2Proof

/-- Why a command word is ILLEGAL (rule R117). -/
inductive IllegalWord where
  /-- Bits 7:0 are not a listed opcode. -/
  | unlistedOpcode
  /-- The opcode is listed and a bit of the reserved field is set. -/
  | reservedBits
deriving DecidableEq, Repr

/-- What a decoder answers: an instruction, or ILLEGAL with the reason. -/
inductive Decoded where
  | instr (i : Instr)
  | illegal (why : IllegalWord)
deriving DecidableEq, Repr

/-- One row of rule R115 as rule R116 reads it: the word is the row's if `v & mask = match`. -/
structure CommandRow where
  mask : Word
  pattern : Word
  /-- The row's instruction, given the word its operand field is read from. -/
  build : Word → Instr

/-- The round-key index of RK_LOAD: `N = zext_4(word[11:8])` (rule R114). -/
def rkIndexField (v : Word) : Nat := (v.extractLsb' 8 4).toNat

/-- A row of format C0 (rule R112): every bit of the word is fixed, bits 31:8 at zero. -/
def rowC0 (word : Word) (i : Instr) : CommandRow := ⟨0xFFFFFFFF#32, word, fun _ => i⟩

/-- The row of format C1 (rule R113), RK_LOAD: bits 11:8 hold N, the other bits are fixed. -/
def rowC1 : CommandRow := ⟨0xFFFFF0FF#32, 0x00000015#32, fun v => .rkLoad (rkIndexField v)⟩

/-- The command table of rule R115. -/
def commandTable : List CommandRow :=
  [rowC0 0x00000000#32 .nop, rowC0 0x00000001#32 .gfBittest, rowC0 0x00000002#32 .gfXtime,
   rowC0 0x00000003#32 .gfMul, rowC0 0x00000004#32 .gfInv, rowC0 0x00000005#32 .gfSbox,
   rowC0 0x00000006#32 .gfInvsbox] ++
  [rowC0 0x00000010#32 .keyExpand, rowC0 0x00000011#32 .rkResetFwd, rowC0 0x00000012#32 .rkResetBwd,
   rowC0 0x00000013#32 .rkNextEnc, rowC0 0x00000014#32 .rkNextDec, rowC1] ++
  [rowC0 0x00000020#32 .subBytes, rowC0 0x00000021#32 .invSubBytes, rowC0 0x00000022#32 .shiftRows,
   rowC0 0x00000023#32 .invShiftRows, rowC0 0x00000024#32 .mixColumns, rowC0 0x00000025#32 .invMixColumns,
   rowC0 0x00000026#32 .addRoundKey] ++
  [rowC0 0x00000030#32 .encBlock, rowC0 0x00000031#32 .decBlock]

/-- The word is the row's (rule R116). -/
def CommandRow.accepts (row : CommandRow) (v : Word) : Bool := v &&& row.mask == row.pattern

/-- Bits 7:0 of the word are a listed opcode (rule R117). -/
def listedOpcode (v : Word) : Bool := commandTable.any fun row => row.pattern.setWidth 8 == v.setWidth 8

/-- `decode(v)` of rule R116, total on all 2^32 words: the row of rule R115 that the word matches, else ILLEGAL. -/
def decodeCommand (v : Word) : Decoded :=
  match commandTable.find? fun row => row.accepts v with
  | some row => .instr (row.build v)
  | none => .illegal (if listedOpcode v then .reservedBits else .unlistedOpcode)

/-- A host transaction (format H, rule R111): bit 44 `we`, bits 43:32 `off`, bits 31:0 `data` (ignored for a read;
log 11). Every 45-bit value is a transaction. -/
def decodeTransaction (t : Transaction) : Instr :=
  if t.getLsbD 44 then .hostWrite (t.extractLsb' 32 12) (t.extractLsb' 0 32)
  else .hostRead (t.extractLsb' 32 12)

/-- The bits of an instruction in one of the two encoded forms of rule R110. -/
inductive Encoded where
  /-- A 32-bit command word, formats C0 and C1. -/
  | command (v : Word)
  /-- A 45-bit host transaction, format H. -/
  | transaction (t : Transaction)
deriving DecidableEq, Repr

/-- The decoder of both forms. -/
def decode : Encoded → Decoded
  | .command v => decodeCommand v
  | .transaction t => .instr (decodeTransaction t)

/-- The transaction `HostRead(off)` (rule R111), with its ignored data bits zero. -/
def hostReadBits (off : BitVec 12) : Transaction := 0#1 ++ off ++ 0#32

/-- The transaction `HostWrite(off, data)` (rule R111). -/
def hostWriteBits (off : BitVec 12) (data : Word) : Transaction := 1#1 ++ off ++ data

/-- The word of RK_LOAD: `0x15 | (N << 8)` (rules R113 and R119). -/
def rkLoadWord (n : Nat) : Word := 0x15#32 ||| (BitVec.ofNat 32 n <<< 8)

/-- The encoder: the word column of rule R115, and format H. -/
def encode : Instr → Encoded
  | .nop => .command 0x00000000#32
  | .gfBittest => .command 0x00000001#32
  | .gfXtime => .command 0x00000002#32
  | .gfMul => .command 0x00000003#32
  | .gfInv => .command 0x00000004#32
  | .gfSbox => .command 0x00000005#32
  | .gfInvsbox => .command 0x00000006#32
  | .keyExpand => .command 0x00000010#32
  | .rkResetFwd => .command 0x00000011#32
  | .rkResetBwd => .command 0x00000012#32
  | .rkNextEnc => .command 0x00000013#32
  | .rkNextDec => .command 0x00000014#32
  | .rkLoad n => .command (rkLoadWord n)
  | .subBytes => .command 0x00000020#32
  | .invSubBytes => .command 0x00000021#32
  | .shiftRows => .command 0x00000022#32
  | .invShiftRows => .command 0x00000023#32
  | .mixColumns => .command 0x00000024#32
  | .invMixColumns => .command 0x00000025#32
  | .addRoundKey => .command 0x00000026#32
  | .encBlock => .command 0x00000030#32
  | .decBlock => .command 0x00000031#32
  | .hostRead off => .transaction (hostReadBits off)
  | .hostWrite off data => .transaction (hostWriteBits off data)

/-- The instruction the decoder reads from `w`, its bits numbered as spec/opcode_table.json numbers them. A row of at
most 32 bits is a command word; a wider row is a format-H transaction, whose 45 bits stand in six bytes with the three
bits above bit 44 at zero (log 13). -/
def decodeTableWord (nbits w : Nat) : Option Instr :=
  if nbits ≤ 32 then
    if w < 2 ^ 32 then
      match decodeCommand (BitVec.ofNat 32 w) with
      | .instr i => some i
      | .illegal _ => none
    else none
  else if w < 2 ^ 45 then some (decodeTransaction (BitVec.ofNat 45 w)) else none

end Sys2Proof
end

