-- ==== Sys2Proof/Machine/State.lean ====
section
/-! DEFINITION. State: everything the spec gives the core (rules R30 to R52, 10_state.md), plain data, with the reset
values of rule R320 (70_reset_and_hazards.md). Beside the core's registers stand the moves of the two agents still to
come, the values the host has read, and the counter of the free values drawn. -/

namespace Sys2Proof.Machine

/-- PHASE (rule R52): STATUS.BUSY reads 1 exactly when it is `busy`. -/
inductive Phase where
  | idle
  | busy
deriving DecidableEq, Repr

/-- STATUS.ERRCODE: the codes of rule R291 (60_exceptions.md). Codes 7 to 15 "are reserved and never produced", so they
have no constructor (log 7). -/
inductive ErrCode where
  /-- Code 0: no error recorded since reset or since ERR was last cleared. -/
  | noError
  /-- Code 1, E_OPCODE (R292). -/
  | opcode
  /-- Code 2, E_KEYLEN (R293). -/
  | keyLen
  /-- Code 3, E_NOKEY (R294). -/
  | noKey
  /-- Code 4, E_CURSOR (R295). -/
  | cursor
  /-- Code 5, E_RKINDEX (R296). -/
  | rkIndex
  /-- Code 6, E_BUSY (R297). -/
  | busy
deriving DecidableEq, Repr

/-- One move of an agent, as a run orders them (rules R91 and R330; log 1). -/
inductive Event where
  /-- The host puts a format-H transaction on its port (rules R80 and R111). -/
  | transaction (t : Transaction)
  /-- The core has its turn: it takes the completion step of the command it is running (rule R34). Idle, it does
  nothing (rule R322: "The core takes no step of its own until a command is accepted"). -/
  | coreTurn
  /-- A clock edge that samples `rst` high (rule R320). `lost` is a host transaction of the same cycle, if there was
  one: it "is lost" (rule R321). -/
  | reset (lost : Option Transaction)
deriving DecidableEq, Repr

/-- Reasons for the machine to stop with a fault. There are none, so this type has no constructor: "The core raises no
trap, exception or fault in the host's sense" (rule R290); every error is a record in STATUS, in a next state. Safe. -/
inductive Fault where
deriving DecidableEq, Repr

/-- Reasons for having no meaning for an instruction. -/
inductive Refusal where
  /-- Raised by an arm of `exec` for an instruction that has no meaning yet, by its mnemonic. No arm raises it now. Safe:
  the machine stops where the hardware goes on. -/
  | notModelled (mnemonic : String)
deriving DecidableEq, Repr

/-- The state of the core, of its host port, and the moves still to come. -/
structure State where
  /-- CTRL.IE, the interrupt enable (R32). -/
  ie : Bool
  /-- PHASE, read as STATUS.BUSY (R34, R52). -/
  phase : Phase
  /-- STATUS.DONE (R35). -/
  done : Bool
  /-- STATUS.ERR (R36). -/
  err : Bool
  /-- STATUS.ERRCODE (R38). -/
  errCode : ErrCode
  /-- STATUS.KEY_VALID (R37). -/
  keyValid : Bool
  /-- STATUS.NK (R39). -/
  nk : BitVec 4
  /-- STATUS.NR (R39). -/
  nr : BitVec 4
  /-- STATUS.CURSOR, counted in round keys (R40). -/
  cursor : BitVec 4
  /-- LATCH, the command word accepted last (R52). -/
  latch : Word
  /-- KEYLEN[7:0], the key length in bytes (R43). -/
  keyLen : Byte
  /-- KEY[0..7] (R44). -/
  key : KeyRegs
  /-- STATE[0..3], the 4x4 state, one column a word (R46). -/
  block : Block
  /-- RK[0..3], one round key in the same mapping (R47). -/
  rk : Block
  /-- GF_A[7:0] (R48). -/
  gfA : Byte
  /-- GF_B[7:0] (R48). -/
  gfB : Byte
  /-- GF_R[7:0] (R48). -/
  gfR : Byte
  /-- W[0..59], the expanded-key memory (R50). -/
  w : Schedule
  /-- The moves still to come, the next one first (R91; log 1). When the list is empty the host has issued its last
  transaction, and only the core moves. -/
  events : List Event
  /-- "The sequence of values the host's reads returned" (R330), the oldest first (log 3). -/
  reads : List Word
  /-- The MODEL's own field: how many free values have been drawn (log 2). -/
  draws : Nat
deriving DecidableEq, Repr

/-- The outcome of a step of this machine. -/
abbrev Result := Host.Outcome State Fault Refusal

/-- The machine right after reset (rule R320), with no move to come and nothing read. -/
def State.reset : State where
  ie := false
  phase := .idle
  done := false
  err := false
  errCode := .noError
  keyValid := false
  nk := 0
  nr := 0
  cursor := 0
  latch := 0x00000000
  keyLen := 0
  key := Vector.replicate 8 0x00000000
  block := Vector.replicate 4 0x00000000
  rk := Vector.replicate 4 0x00000000
  gfA := 0
  gfB := 0
  gfR := 0
  w := Vector.replicate 60 0x00000000
  events := []
  reads := []
  draws := 0

end Sys2Proof.Machine
end

