-- ==== Sys2Proof/Machine/Ops.lean ====
section
/-! DEFINITION. Ops: the shared operations over bytes, words, the expanded-key memory and the state; among them the
completion of a command (rule R34), the recording of an error (rule R298), the acceptance of a command word (rule R116),
the invalidation of the schedule (rule R45), the reset (rule R320), and which agent moves next (rule R91). -/

namespace Sys2Proof.Machine

/-! ## Bytes in words (rule R10, 00_scope.md) -/

/-- `word32(w0, w1, w2, w3) = w0 || w1 || w2 || w3`: the first byte in bits 31:24 (rule R10). -/
def word32 (w0 w1 w2 w3 : Byte) : Word := w0 ++ w1 ++ w2 ++ w3

/-- `byte(v, t) = v[31-8t : 24-8t]`, with `t = 0` the first byte (rule R10). -/
def byteOf (v : Word) (t : Fin 4) : Byte := v.extractLsb' (24 - 8 * t.val) 8

/-- `zext_32` of a byte (rule R8). -/
def zext32 (b : Byte) : Word := b.setWidth 32

/-! ## The 4x4 state (rules R9 and R239) -/

/-- A State of rule R9: a 4x4 matrix of bytes `s r c`, row `r`, column `c`. -/
abbrev Cells := Fin 4 → Fin 4 → Byte

/-- `state(STATE)` of rule R239: `s[r][c] = byte(STATE[c], r)`. -/
def cells (b : Block) : Cells := fun r c => byteOf b[c] r

/-- `STATE <- s` of rule R239: `STATE[c] = word32(s[0][c], s[1][c], s[2][c], s[3][c])`. -/
def ofCells (s : Cells) : Block :=
  let column (c : Fin 4) : Word := word32 (s 0 c) (s 1 c) (s 2 c) (s 3 c)
  #v[column 0, column 1, column 2, column 3]

/-- A round transform applied to four columns: read them, apply, write all four back (section 2 of 43_block_state.md:
each command "computes the whole result out of place"). -/
def onCells (f : Cells → Cells) (b : Block) : Block := ofCells (f (cells b))

/-! ## The expanded-key memory (rule R50, 10_state.md) -/

/-- `W[i]`. An index above 59 is named only in states that no run reaches (NR = 15, or a cursor beyond NR + 1); it reads
0 there (log 8). -/
def wordAt (w : Schedule) (i : Nat) : Word := if h : i < 60 then w[i] else 0

/-- `W[i] <- v`. -/
def setWord (w : Schedule) (i : Nat) (v : Word) : Schedule := w.setIfInBounds i v

/-- `W[0..59] <- 0` (rules R45 and R320). -/
def clearedSchedule : Schedule := Vector.replicate 60 0

/-- `roundKey(n)` of rule R196: words `4n..4n+3`. -/
def roundKey (w : Schedule) (n : Nat) : Block :=
  #v[wordAt w (4 * n), wordAt w (4 * n + 1), wordAt w (4 * n + 2), wordAt w (4 * n + 3)]

/-! ## How a command ends -/

/-- The end of a successful completion step (rule R34): BUSY to 0 and DONE to 1. "A successful command does not touch ERR
or ERRCODE" (rule R298). -/
def State.complete (s : State) : State := { s with phase := .idle, done := true }

/-- `raise Error(code)` (rule R298): the command ends with none of its data effects; the error is recorded. This is all
the core has in the place of taking an exception (rule R290). -/
def State.raiseError (code : ErrCode) (s : State) : State :=
  { s with err := true, errCode := code, phase := .idle, done := true }

/-- The check of every command that needs the expanded key (rule R294): E_NOKEY when KEY_VALID = 0. -/
def State.withSchedule (s : State) (body : Result) : Result :=
  if s.keyValid then body else .next (s.raiseError .noKey)

/-- The completion step of a word that decodes to ILLEGAL: `raise Error(E_OPCODE)` (rules R116 and R292). -/
def completeIllegal (s : State) : Result := .next (s.raiseError .opcode)

/-! ## What the host's transactions do beyond a register -/

/-- Acceptance of a command word (rule R116): `LATCH <- v; PHASE <- BUSY; DONE <- 0`. -/
def State.accept (v : Word) (s : State) : State := { s with latch := v, phase := .busy, done := false }

/-- `Invalidate()` (rule R45). -/
def State.invalidate (s : State) : State :=
  { s with keyValid := false, nk := 0, nr := 0, cursor := 0, w := clearedSchedule }

/-- A host write while BUSY = 1 (rule R297): discarded, `ERR <- 1; ERRCODE <- 6`, nothing else changes. -/
def State.recordBusyWrite (s : State) : State := { s with err := true, errCode := .busy }

/-- The host gets the value of a read (rules R85 and R330). The core's own state is not touched. -/
def State.returnRead (v : Word) (s : State) : State := { s with reads := s.reads ++ [v] }

/-- One free value has been drawn (rule R56; log 2). -/
def State.countDraw (s : State) : State := { s with draws := s.draws + 1 }

/-! ## Reset (rule R320, 70_reset_and_hazards.md) -/

/-- A clock edge with `rst` high: "Reset sets every piece of state to the value below" (rule R320), and a running command
is abandoned (rule R321). What the host has read and what it does next are the host's own (log 4). -/
def State.takeReset (s : State) : State :=
  { State.reset with events := s.events, reads := s.reads, draws := s.draws }

/-! ## Whose move is next (rules R91 and R331; log 1) -/

/-- The next move of the machine. -/
inductive Turn where
  /-- The host's transaction, or the completion step of the command the core is running. -/
  | run (i : Instr)
  /-- The completion step of an illegal command word. -/
  | illegal
  /-- A reset. -/
  | reset
  /-- The core is idle and nothing moves (rules R310 and R322). -/
  | rest
deriving DecidableEq, Repr

/-- The core's turn: while BUSY, the completion step of `decode(LATCH)` (rule R116); while idle, nothing. -/
def State.coreMove (s : State) : Turn :=
  match s.phase with
  | .idle => .rest
  | .busy =>
    match decodeCommand s.latch with
    | .instr i => .run i
    | .illegal _ => .illegal

/-- The move the first event makes. When the host has no move left, the turn is the core's, so that an accepted command
has its completion step (weak fairness, rule R331). -/
def State.turn (s : State) : Turn :=
  match s.events with
  | [] => s.coreMove
  | .transaction t :: _ => .run (decodeTransaction t)
  | .coreTurn :: _ => s.coreMove
  | .reset _ :: _ => .reset

/-- The first event is taken off the list. -/
def State.popEvent (s : State) : State := { s with events := s.events.tail }

end Sys2Proof.Machine
end

