-- ==== Sys2Proof/Machine/Flags.lean ====
section
/-! DEFINITION. Flags: the STATUS word of rule R33 (10_state.md), its write-1-to-clear bits (rule R41), its reads while
BUSY (rule R56), and the interrupt line (rule R302, 60_exceptions.md). -/

namespace Sys2Proof.Machine

/-- The 4-bit code of rule R291. -/
def ErrCode.bits : ErrCode → BitVec 4
  | .noError => 0
  | .opcode => 1
  | .keyLen => 2
  | .noKey => 3
  | .cursor => 4
  | .rkIndex => 5
  | .busy => 6

/-- STATUS.BUSY: 1 exactly when PHASE = BUSY (rule R52). -/
def State.busyFlag (s : State) : Bool := s.phase == .busy

/-- The STATUS register, field by field from bit 31 down to bit 0 (rule R33). -/
def State.statusWord (s : State) : Word :=
  0#4 ++ s.cursor ++ s.nr ++ s.nk ++ 0#4 ++ s.errCode.bits ++ 0#4 ++ BitVec.ofBool s.keyValid ++ BitVec.ofBool s.err ++
    BitVec.ofBool s.done ++ BitVec.ofBool s.busyFlag

/-- The STATUS bits that read an unspecified value while BUSY = 1 (rule R56): CURSOR 27:24, NR 23:20, NK 19:16 and
KEY_VALID 3. -/
def statusFreeBits : Word := 0x0FFF0008

/-- A STATUS read while BUSY = 1 (rule R56): the four fields are free, "the other STATUS fields … read exactly". -/
def State.busyStatusWord (s : State) (draw : Word) : Word :=
  (s.statusWord &&& ~~~statusFreeBits) ||| (draw &&& statusFreeBits)

/-- A host write to STATUS while BUSY = 0 (rule R41): `if v[1] = 1 then DONE <- 0`; `if v[2] = 1 then { ERR <- 0;
ERRCODE <- 0 }`. It is how an error is done with: "Clearing needs no return instruction and restores nothing" (rule
R301). -/
def State.writeStatus (v : Word) (s : State) : State :=
  { s with done := if v.getLsbD 1 then false else s.done,
           err := if v.getLsbD 2 then false else s.err,
           errCode := if v.getLsbD 2 then .noError else s.errCode }

/-- The interrupt output: `irq = CTRL.IE & STATUS.DONE` at every instant (rule R302). -/
def State.irq (s : State) : Bool := s.ie && s.done

end Sys2Proof.Machine
end

