-- ==== Sys2Proof/Machine/Operands.lean ====
section
/-! DEFINITION. Operands: which register a host offset names (rules R31 and R84), what a register reads as (rules R32 to
R56, 10_state.md), what a write does to it (rule R86, 20_memory.md), and the legal key lengths (rule R190). -/

namespace Sys2Proof.Machine

/-- The registers of the register map (rule R31), and the reserved offsets (rule R55). -/
inductive Reg where
  | ctrl
  | status
  | cmd
  | keyLen
  | key (m : Fin 8)
  | block (j : Fin 4)
  | rk (j : Fin 4)
  | gfA
  | gfB
  | gfR
  | ekey (j : Fin 60)
  | reserved
deriving DecidableEq, Repr

/-- "The two low bits of `off` are ignored": `off & 0xFFC` (rule R84). -/
def alignOffset (off : BitVec 12) : BitVec 12 := off &&& 0xFFC#12

/-- The register at an aligned byte offset (the table of rule R31): the index of a register array is the distance from its
first offset in words. -/
def regOf (a : Nat) : Reg :=
  if a = 0x000 then .ctrl
  else if a = 0x004 then .status
  else if a = 0x008 then .cmd
  else if a = 0x00C then .keyLen
  else if 0x010 ≤ a ∧ a < 0x030 then .key (Fin.ofNat _ ((a - 0x010) / 4))
  else if 0x030 ≤ a ∧ a < 0x040 then .block (Fin.ofNat _ ((a - 0x030) / 4))
  else if 0x040 ≤ a ∧ a < 0x050 then .rk (Fin.ofNat _ ((a - 0x040) / 4))
  else if a = 0x050 then .gfA
  else if a = 0x054 then .gfB
  else if a = 0x058 then .gfR
  else if 0x100 ≤ a ∧ a < 0x1F0 then .ekey (Fin.ofNat _ ((a - 0x100) / 4))
  else .reserved

/-- The register a transaction acts on: the one at `off & 0xFFC` (rules R84 to R86). -/
def regAt (off : BitVec 12) : Reg := regOf (alignOffset off).toNat

/-- `EKEY[j]` (rule R49): `W[j]` when KEY_VALID = 1 and `j < 4*(NR+1)`, and 0 otherwise. -/
def State.ekeyValue (s : State) (j : Fin 60) : Word :=
  if s.keyValid && decide (j.val < 4 * (s.nr.toNat + 1)) then s.w[j] else 0

/-- The value of a register while BUSY = 0 (rule R85). Reserved bits and reserved offsets read 0 (rule R55). -/
def State.regValue (s : State) : Reg → Word
  | .ctrl => (BitVec.ofBool s.ie).setWidth 32
  | .status => s.statusWord
  | .cmd => 0
  | .keyLen => zext32 s.keyLen
  | .key m => s.key[m]
  | .block j => s.block[j]
  | .rk j => s.rk[j]
  | .gfA => zext32 s.gfA
  | .gfB => zext32 s.gfB
  | .gfR => zext32 s.gfR
  | .ekey j => s.ekeyValue j
  | .reserved => 0

/-- The registers whose read while BUSY = 1 holds an unspecified value (rule R56). -/
def Reg.unsettled : Reg → Bool
  | .ctrl => false
  | .status => true
  | .cmd => false
  | .keyLen => false
  | .key _ => false
  | .block _ => true
  | .rk _ => true
  | .gfA => false
  | .gfB => false
  | .gfR => true
  | .ekey _ => true
  | .reserved => false

/-- The value of a register while BUSY = 1, given the free draw (rule R56; 93_implementation_defined.md item 1). -/
def State.busyRegValue (s : State) (draw : Word) : Reg → Word
  | .ctrl => s.regValue .ctrl
  | .status => s.busyStatusWord draw
  | .cmd => s.regValue .cmd
  | .keyLen => s.regValue .keyLen
  | .key m => s.regValue (.key m)
  | .block _ => draw
  | .rk _ => draw
  | .gfA => s.regValue .gfA
  | .gfB => s.regValue .gfB
  | .gfR => draw
  | .ekey _ => draw
  | .reserved => s.regValue .reserved

/-- The register's own rule for a write while BUSY = 0 (rule R86). Writes to GF_R, EKEY and reserved offsets are ignored
(rule R55). -/
def State.writeReg (v : Word) (s : State) : Reg → State
  | .ctrl => { s with ie := v.getLsbD 0 }
  | .status => s.writeStatus v
  | .cmd => s.accept v
  | .keyLen => { s with keyLen := v.setWidth 8 }.invalidate
  | .key m => { s with key := s.key.set m v }.invalidate
  | .block j => { s with block := s.block.set j v }
  | .rk j => { s with rk := s.rk.set j v }
  | .gfA => { s with gfA := v.setWidth 8 }
  | .gfB => { s with gfB := v.setWidth 8 }
  | .gfR => s
  | .ekey _ => s
  | .reserved => s

/-- The key length in bytes is legal: 16, 24 or 32 (rule R190). -/
def validKeyLen (len : Nat) : Bool := len == 16 || len == 24 || len == 32

end Sys2Proof.Machine
end

