-- ==== Sys2Proof/Machine/Field.lean ====
section
/-! DEFINITION. Field: GF(2^8) arithmetic modulo 0x11B and the four field-unit commands (40_field_arithmetic.md). -/

namespace Sys2Proof.Machine

/-! ## Functions (rules R140 to R146) -/

/-- `isBitSet(value, bit) = (bit < 8) and (value[bit] = 1)` (rule R141). -/
def isBitSet (value : Byte) (bit : Nat) : Bool := decide (bit < 8) && value.getLsbD bit

/-- `xtime(a) = ((a << 1) & 0xFF) ^ (a[7] ? 0x1B : 0x00)` (rule R142); the width drops bit 7. -/
def xtime (a : Byte) : Byte := (a <<< 1) ^^^ (if a.getLsbD 7 then 0x1B else 0x00)

/-- One pass of the loop of rule R143, on the pair (acc, t). -/
def mulStep (a : Byte) (acct : Byte × Byte) (i : Nat) : Byte × Byte :=
  (if isBitSet a i then acct.1 ^^^ acct.2 else acct.1, xtime acct.2)

/-- `mul(a, b)`, the field product by add-and-shift: `for i in 0..7` from acc = 0x00, t = b (rule R143). -/
def mul (a b : Byte) : Byte := ((List.range 8).foldl (mulStep a) (0x00, b)).1

/-- A triple of rule R146: a remainder `r = s * a + t * m`, polynomials over GF(2) as numbers. -/
structure Bezout where
  r : Nat
  s : Nat
  t : Nat
deriving DecidableEq, Repr

/-- `deg(v)`, the index of the highest set bit (rule R146). -/
def deg (v : Nat) : Nat := v.log2

/-- Reduce `x` by `y` shifted to match its degree (rule R146). -/
def Bezout.reduceBy (x y : Bezout) : Bezout :=
  let k := deg x.r - deg y.r
  ⟨x.r ^^^ (y.r <<< k), x.s ^^^ (y.s <<< k), x.t ^^^ (y.t <<< k)⟩

/-- The loop of rule R146, `while rA != 1 and rB != 1`. Each pass lowers one degree, and the degrees start at 8 and at
most 7, so 16 passes are never used up (log 6). -/
def bezoutLoop : Nat → Bezout → Bezout → Bezout × Bezout
  | 0, a, b => (a, b)
  | fuel + 1, a, b =>
    if a.r = 1 ∨ b.r = 1 then (a, b)
    else if deg b.r ≤ deg a.r then bezoutLoop fuel (a.reduceBy b) b
    else bezoutLoop fuel a (b.reduceBy a)

/-- `multiplicativeInverse(a)` (rule R145), by the extended GCD of rule R146: the SECOND component, the coefficient on
the input, of the triple whose remainder is 1 (90_conflicts.md C3); `inv(0) = 0`. -/
def inv (a : Byte) : Byte :=
  if a = 0x00 then 0x00
  else
    let ends := bezoutLoop 16 ⟨0x11B, 0, 1⟩ ⟨a.toNat, 1, 0⟩
    BitVec.ofNat 8 (if ends.1.r = 1 then ends.1.s else ends.2.s)

/-! ## Commands (rules R150 to R153) -/

/-- The end of every field-unit command: `GF_R <- zext_32(v)`, then completion; no other register is written
(section 2 of 40_field_arithmetic.md). -/
def State.finishField (v : Byte) (s : State) : State := { s with gfR := v }.complete

/-- GF_BITTEST (rule R150). -/
def execGfBittest (s : State) : Result :=
  .next (s.finishField (if isBitSet s.gfA s.gfB.toNat then 0x01 else 0x00))

/-- GF_XTIME (rule R151). -/
def execGfXtime (s : State) : Result := .next (s.finishField (xtime s.gfA))

/-- GF_MUL (rule R152). -/
def execGfMul (s : State) : Result := .next (s.finishField (mul s.gfA s.gfB))

/-- GF_INV (rule R153). -/
def execGfInv (s : State) : Result := .next (s.finishField (inv s.gfA))

end Sys2Proof.Machine
end

