-- ==== Sys2Proof/Machine/SBox.lean ====
section
/-! DEFINITION. SBox: the affine transforms, the S-box and its inverse, and their two commands (41_sbox.md). The model
computes the S-box values from rules R171 and R173 and holds no table (rule R175: not observable; log 12). -/

namespace Sys2Proof.Machine

/-- `rotl8(v, n)`, the rotation of a byte left by `n` bits (rule R170). -/
def rotl8 (v : Byte) (n : Nat) : Byte := (v <<< n) ||| (v >>> (8 - n))

/-- `affine(b)`, the five-term form of rule R170 (90_conflicts.md C1; log 16). -/
def affine (b : Byte) : Byte := b ^^^ rotl8 b 1 ^^^ rotl8 b 2 ^^^ rotl8 b 3 ^^^ rotl8 b 4 ^^^ 0x63

/-- `sbox(a) = affine(inv(a))` (rule R171). -/
def sbox (a : Byte) : Byte := affine (inv a)

/-- `invAffine(s)` (rule R172; log 16). -/
def invAffine (s : Byte) : Byte := rotl8 s 1 ^^^ rotl8 s 3 ^^^ rotl8 s 6 ^^^ 0x05

/-- `invSbox(s) = inv(invAffine(s))` (rule R173). -/
def invSbox (s : Byte) : Byte := inv (invAffine s)

/-- GF_SBOX (rule R180). -/
def execGfSbox (s : State) : Result := .next (s.finishField (sbox s.gfA))

/-- GF_INVSBOX (rule R181). -/
def execGfInvsbox (s : State) : Result := .next (s.finishField (invSbox s.gfA))

end Sys2Proof.Machine
end

