-- ==== Sys2Proof/Machine/BlockState.lean ====
section
/-! DEFINITION. BlockState: the round transforms on the 4x4 state and the seven commands that apply them to the STATE
registers (43_block_state.md). Indices of rows and columns are of type Fin 4, whose arithmetic is mod 4. -/

namespace Sys2Proof.Machine

/-! ## Functions (rules R231 to R237) -/

/-- `SubBytes(s)`: `s'[r][c] = sbox(s[r][c])` (rule R231). -/
def subBytes (s : Cells) : Cells := fun r c => sbox (s r c)

/-- `InvSubBytes(s)`: `s'[r][c] = invSbox(s[r][c])` (rule R232). -/
def invSubBytes (s : Cells) : Cells := fun r c => invSbox (s r c)

/-- `ShiftRows(s)`: `s'[r][c] = s[r][(c + r) mod 4]` (rule R233). -/
def shiftRows (s : Cells) : Cells := fun r c => s r (c + r)

/-- `InvShiftRows(s)`: `s'[r][c] = s[r][(c - r) mod 4]` (rule R234). -/
def invShiftRows (s : Cells) : Cells := fun r c => s r (c - r)

/-- Matrix M of rule R235, row by row (log 16). -/
def mixMatrix : Vector (Vector Byte 4) 4 :=
  #v[#v[0x02, 0x03, 0x01, 0x01], #v[0x01, 0x02, 0x03, 0x01], #v[0x01, 0x01, 0x02, 0x03], #v[0x03, 0x01, 0x01, 0x02]]

/-- Matrix IM of rule R236, row by row (log 16). -/
def invMixMatrix : Vector (Vector Byte 4) 4 :=
  #v[#v[0x0e, 0x0b, 0x0d, 0x09], #v[0x09, 0x0e, 0x0b, 0x0d], #v[0x0d, 0x09, 0x0e, 0x0b], #v[0x0b, 0x0d, 0x09, 0x0e]]

/-- The matrix product over GF(2^8), every `s'[.][c]` from the old column `c` (rules R235 and R236). -/
def mixWith (m : Vector (Vector Byte 4) 4) (s : Cells) : Cells := fun r c =>
  mul m[r][0] (s 0 c) ^^^ mul m[r][1] (s 1 c) ^^^ mul m[r][2] (s 2 c) ^^^ mul m[r][3] (s 3 c)

/-- `MixColumns(s)` (rule R235). -/
def mixColumns (s : Cells) : Cells := mixWith mixMatrix s

/-- `InvMixColumns(s)` (rule R236). -/
def invMixColumns (s : Cells) : Cells := mixWith invMixMatrix s

/-- `AddRoundKey` on columns: `STATE[c] ^ RK[c]` for c = 0..3, which is `s[r][c] ^ k[r + 4c]` byte by byte (rule R237). -/
def addRoundKey (b k : Block) : Block := #v[b[0] ^^^ k[0], b[1] ^^^ k[1], b[2] ^^^ k[2], b[3] ^^^ k[3]]

/-! ## Commands (rules R240 to R246) -/

/-- The end of every transform command: all four STATE registers are written, then completion. -/
def State.finishBlock (b : Block) (s : State) : State := { s with block := b }.complete

/-- SUB_BYTES (rule R240). -/
def execSubBytes (s : State) : Result := .next (s.finishBlock (onCells subBytes s.block))

/-- INV_SUB_BYTES (rule R241). -/
def execInvSubBytes (s : State) : Result := .next (s.finishBlock (onCells invSubBytes s.block))

/-- SHIFT_ROWS (rule R242). -/
def execShiftRows (s : State) : Result := .next (s.finishBlock (onCells shiftRows s.block))

/-- INV_SHIFT_ROWS (rule R243). -/
def execInvShiftRows (s : State) : Result := .next (s.finishBlock (onCells invShiftRows s.block))

/-- MIX_COLUMNS (rule R244). -/
def execMixColumns (s : State) : Result := .next (s.finishBlock (onCells mixColumns s.block))

/-- INV_MIX_COLUMNS (rule R245). -/
def execInvMixColumns (s : State) : Result := .next (s.finishBlock (onCells invMixColumns s.block))

/-- ADD_ROUND_KEY (rule R246): it reads RK, not W, and needs no valid schedule. -/
def execAddRoundKey (s : State) : Result := .next (s.finishBlock (addRoundKey s.block s.rk))

end Sys2Proof.Machine
end

