-- ==== Sys2Proof/Machine/KeySchedule.lean ====
section
/-! DEFINITION. KeySchedule: key expansion, and the commands over the schedule and its cursor (42_key_schedule.md). -/

namespace Sys2Proof.Machine

/-! ## Functions (rules R192 to R195) -/

/-- `rotWord(v) = (v << 8 | v >> 24) & 0xFFFFFFFF` (rule R192). -/
def rotWord (v : Word) : Word := (v <<< 8) ||| (v >>> 24)

/-- `subWord(word)` applies `sbox` to each of the four bytes (rule R193). -/
def subWord (v : Word) : Word :=
  word32 (sbox (byteOf v 0)) (sbox (byteOf v 1)) (sbox (byteOf v 2)) (sbox (byteOf v 3))

/-- `xtime` applied to 0x01 exactly `n` times (rule R194). -/
def xtimePow : Nat → Byte
  | 0 => 0x01
  | n + 1 => xtime (xtimePow n)

/-- `rcon(pow) = word32(xtime^(pow-1)(0x01), 0x00, 0x00, 0x00)`, used for `pow >= 1` only (rule R194). -/
def rcon (pow : Nat) : Word := word32 (xtimePow (pow - 1)) 0x00 0x00 0x00

/-- `temp` of the loop of rule R195 at word index `i`, from the previous word. -/
def expandTemp (nk i : Nat) (prev : Word) : Word :=
  if i % nk = 0 then subWord (rotWord prev) ^^^ rcon (i / nk)
  else if 6 < nk ∧ i % nk = 4 then subWord prev
  else prev

/-- One pass of the loop of rule R195: `W[i] <- W[i-Nk] ^ temp`. -/
def expandStep (nk : Nat) (w : Schedule) (i : Nat) : Schedule :=
  setWord w i (wordAt w (i - nk) ^^^ expandTemp nk i (wordAt w (i - 1)))

/-- The first loop of rule R195: `W[i] <- KEY[i]` for i in 0..Nk-1, over a cleared memory (its last loop clears the
words past the expanded key, which no other pass writes). -/
def copyKey (key : KeyRegs) (nk : Nat) : Schedule :=
  (List.range nk).foldl (fun w i => setWord w i (key.toList.getD i 0)) clearedSchedule

/-- `keyExpansion(Nk)` of rule R195, with Nr = Nk + 6: words Nk to 4*(Nr+1)-1 in ascending order. -/
def keyExpansion (key : KeyRegs) (nk : Nat) : Schedule :=
  (List.range' nk (4 * (nk + 6 + 1) - nk)).foldl (expandStep nk) (copyKey key nk)

/-! ## Commands (rules R200 to R205) -/

/-- The successful end of KEY_EXPAND: W, NK, NR, KEY_VALID and CURSOR (rule R200). -/
def State.installSchedule (nk : Nat) (s : State) : State :=
  { s with w := keyExpansion s.key nk, nk := BitVec.ofNat 4 nk, nr := BitVec.ofNat 4 (nk + 6), keyValid := true, cursor := 0 }

/-- KEY_EXPAND (rule R200): E_KEYLEN before any word of W is written, unless KEYLEN is 16, 24 or 32. -/
def execKeyExpand (s : State) : Result :=
  if validKeyLen s.keyLen.toNat then .next (s.installSchedule (s.keyLen.toNat / 4)).complete
  else .next (s.raiseError .keyLen)

/-- `CURSOR <- p`, then completion. -/
def State.finishCursor (p : BitVec 4) (s : State) : State := { s with cursor := p }.complete

/-- `RK[j] <- W[4n + j]` for j = 0..3 (rule R196). -/
def State.loadRoundKey (n : Nat) (s : State) : State := { s with rk := roundKey s.w n }

/-- RK_RESET_FWD (rule R201). -/
def execRkResetFwd (s : State) : Result := s.withSchedule (.next (s.finishCursor 0))

/-- RK_RESET_BWD (rule R202): `CURSOR <- NR + 1`. -/
def execRkResetBwd (s : State) : Result := s.withSchedule (.next (s.finishCursor (s.nr + 1)))

/-- RK_NEXT_ENC (rule R203): E_CURSOR at `p = NR + 1`; else round key `p` and `CURSOR <- p + 1`. -/
def execRkNextEnc (s : State) : Result :=
  s.withSchedule
    (if s.cursor.toNat = s.nr.toNat + 1 then .next (s.raiseError .cursor)
     else .next ((s.loadRoundKey s.cursor.toNat).finishCursor (s.cursor + 1)))

/-- RK_NEXT_DEC (rule R204): E_CURSOR at `p = 0`; else round key `p - 1` and `CURSOR <- p - 1`. -/
def execRkNextDec (s : State) : Result :=
  s.withSchedule
    (if s.cursor = 0 then .next (s.raiseError .cursor)
     else .next ((s.loadRoundKey (s.cursor.toNat - 1)).finishCursor (s.cursor - 1)))

/-- RK_LOAD N (rule R205): E_RKINDEX when `N > NR`; else round key N. CURSOR is neither read nor changed. -/
def execRkLoad (n : Nat) (s : State) : Result :=
  s.withSchedule
    (if s.nr.toNat < n then .next (s.raiseError .rkIndex) else .next (s.loadRoundKey n).complete)

end Sys2Proof.Machine
end

