-- ==== Sys2Proof/Machine/BlockDriver.lean ====
section
/-! DEFINITION. BlockDriver: the block cipher over a schedule, and NOP, ENC_BLOCK and DEC_BLOCK (44_block_driver.md). The
round counter exists only inside the completion step (rules R52 and R263). -/

namespace Sys2Proof.Machine

/-! ## Functions (rules R260 and R261) -/

/-- Round `r` of the loop of rule R260: SubBytes, ShiftRows, MixColumns, AddRoundKey with round key `p = r`. -/
def encRound (w : Schedule) (b : Block) (r : Nat) : Block :=
  addRoundKey (onCells mixColumns (onCells shiftRows (onCells subBytes b))) (roundKey w r)

/-- `encryptBlock(s, Nr)` (rule R260): the result and the cursor `p = Nr + 1`. -/
def encryptBlock (w : Schedule) (nr : Nat) (b : Block) : Block × Nat :=
  let start := addRoundKey b (roundKey w 0)
  let middle := (List.range' 1 (nr - 1)).foldl (encRound w) start
  (addRoundKey (onCells shiftRows (onCells subBytes middle)) (roundKey w nr), nr + 1)

/-- Round `r` of the loop of rule R261: InvShiftRows, InvSubBytes, AddRoundKey with round key `r`, InvMixColumns. -/
def decRound (w : Schedule) (b : Block) (r : Nat) : Block :=
  onCells invMixColumns (addRoundKey (onCells invSubBytes (onCells invShiftRows b)) (roundKey w r))

/-- `decryptBlock(s, Nr)` (rule R261), `for r in Nr-1 downto 1`: the result and the cursor `p = 0`. -/
def decryptBlock (w : Schedule) (nr : Nat) (b : Block) : Block × Nat :=
  let start := addRoundKey b (roundKey w nr)
  let middle := (List.range' 1 (nr - 1)).reverse.foldl (decRound w) start
  (addRoundKey (onCells invSubBytes (onCells invShiftRows middle)) (roundKey w 0), 0)

/-! ## Commands (rules R265 to R267) -/

/-- NOP (rule R265): nothing but the completion. -/
def execNop (s : State) : Result := .next s.complete

/-- `STATE <- s; CURSOR <- p`, then completion (rules R266 and R267). RK is neither read nor written. -/
def State.finishCipher (out : Block × Nat) (s : State) : State :=
  { s with block := out.1, cursor := BitVec.ofNat 4 out.2 }.complete

/-- ENC_BLOCK (rule R266). -/
def execEncBlock (s : State) : Result :=
  s.withSchedule (.next (s.finishCipher (encryptBlock s.w s.nr.toNat s.block)))

/-- DEC_BLOCK (rule R267). -/
def execDecBlock (s : State) : Result :=
  s.withSchedule (.next (s.finishCipher (decryptBlock s.w s.nr.toNat s.block)))

end Sys2Proof.Machine
end

