-- ==== Sys2Proof/Machine/HostPort.lean ====
section
/-! DEFINITION. HostPort: the host's two transactions (20_memory.md). -/

namespace Sys2Proof.Machine

/-- The host reads a register: its exact value while BUSY = 0 (rule R85); while BUSY = 1, a value that holds a free draw
for the registers of rule R56, and the exact value for the others. No state of the core changes. -/
def State.readPort (r : Reg) (s : State) : State :=
  match s.phase with
  | .idle => s.returnRead (s.regValue r)
  | .busy =>
    let t := s.returnRead (s.busyRegValue (Config.busyRead s.draws) r)
    if r.unsettled then t.countDraw else t

/-- HOST_READ, `HostRead(off)` (rule R85). -/
def execHostRead (off : BitVec 12) (s : State) : Result := .next (s.readPort (regAt off))

/-- The host writes a register: under the register's rule while BUSY = 0; while BUSY = 1 the write is discarded and E_BUSY
is recorded, "whatever `a` is" (rule R86). -/
def State.writePort (v : Word) (r : Reg) (s : State) : State :=
  match s.phase with
  | .idle => s.writeReg v r
  | .busy => s.recordBusyWrite

/-- HOST_WRITE, `HostWrite(off, data)` (rule R86). -/
def execHostWrite (off : BitVec 12) (data : Word) (s : State) : Result := .next (s.writePort data (regAt off))

end Sys2Proof.Machine
end

