-- ==== Sys2Proof/Machine/Dispatch.lean ====
section
/-! DEFINITION. Dispatch: the meaning of each instruction, one arm each. A command's meaning is the completion step of
that command (rule R34, 10_state.md); a transaction's meaning is the transaction (rules R85 and R86, 20_memory.md). Every meaning is total
over all states (log 9). -/

namespace Sys2Proof.Machine

def exec (i : Instr) (s : State) : Host.Outcome State Fault Refusal :=
  match i with
  | .nop => Sys2Proof.Machine.execNop s
  | .gfBittest => Sys2Proof.Machine.execGfBittest s
  | .gfXtime => Sys2Proof.Machine.execGfXtime s
  | .gfMul => Sys2Proof.Machine.execGfMul s
  | .gfInv => Sys2Proof.Machine.execGfInv s
  | .gfSbox => Sys2Proof.Machine.execGfSbox s
  | .gfInvsbox => Sys2Proof.Machine.execGfInvsbox s
  | .keyExpand => Sys2Proof.Machine.execKeyExpand s
  | .rkResetFwd => Sys2Proof.Machine.execRkResetFwd s
  | .rkResetBwd => Sys2Proof.Machine.execRkResetBwd s
  | .rkNextEnc => Sys2Proof.Machine.execRkNextEnc s
  | .rkNextDec => Sys2Proof.Machine.execRkNextDec s
  | .rkLoad n => Sys2Proof.Machine.execRkLoad n s
  | .subBytes => Sys2Proof.Machine.execSubBytes s
  | .invSubBytes => Sys2Proof.Machine.execInvSubBytes s
  | .shiftRows => Sys2Proof.Machine.execShiftRows s
  | .invShiftRows => Sys2Proof.Machine.execInvShiftRows s
  | .mixColumns => Sys2Proof.Machine.execMixColumns s
  | .invMixColumns => Sys2Proof.Machine.execInvMixColumns s
  | .addRoundKey => Sys2Proof.Machine.execAddRoundKey s
  | .encBlock => Sys2Proof.Machine.execEncBlock s
  | .decBlock => Sys2Proof.Machine.execDecBlock s
  | .hostRead off => Sys2Proof.Machine.execHostRead off s
  | .hostWrite off data => Sys2Proof.Machine.execHostWrite off data s

end Sys2Proof.Machine
end

