-- ==== Sys2Proof/Machine/Step.lean ====
section
/-! DEFINITION. Step: one move of one agent (rule R91, 20_memory.md). A step is a host transaction, a completion step of
the core, a reset, or the rest of an idle core; it is not a clock cycle (rule R331; log 5). -/

namespace Sys2Proof.Machine

/-- The next move, taken off the list of events and made. -/
def step (s : State) : Host.Outcome State Fault Refusal :=
  match s.turn with
  | .run i => exec i s.popEvent
  | .illegal => completeIllegal s.popEvent
  | .reset => .next s.popEvent.takeReset
  | .rest => .next s.popEvent

/-- The instruction whose bits are `w` stands where the next step takes its instruction from (log 13). A command word
(at most 32 bits) is the word of an accepted command, with the core's turn next; a transaction is the host's next move. -/
def State.withFetchWord (s : State) (nbits w : Nat) : State :=
  if nbits ≤ 32 then { s.accept (BitVec.ofNat 32 w) with events := .coreTurn :: s.events }
  else { s with events := .transaction (BitVec.ofNat 45 w) :: s.events }

end Sys2Proof.Machine
end

