-- ==== Sys2Proof/Machine/Ecb.lean ====
section
/-! DEFINITION. Ecb: the message-level ECB of section 3 of 44_block_driver.md. "The core does not run those procedures;
the host does, over the block commands". Here stand what the procedures compute, as functions on byte strings, and the
host's pseudo-instructions of rule R121 (30_encoding.md) and its procedure as lists of events (log 14). -/

namespace Sys2Proof.Machine

/-! ## Byte strings, blocks and keys (rules R46, R82 and R121) -/

/-- Byte `i` of a byte string, zero past its end ("conceptually zero-extend it", rule R270; "taken as zero", rule R121). -/
def byteAt (m : List Byte) (i : Nat) : Byte := m.getD i 0x00

/-- The word of bytes `4i..4i+3` of a byte string (rule R82). -/
def wordOfBytes (m : List Byte) (i : Nat) : Word :=
  word32 (byteAt m (4 * i)) (byteAt m (4 * i + 1)) (byteAt m (4 * i + 2)) (byteAt m (4 * i + 3))

/-- `fromBytes` (rule R46): STATE[c] holds bytes `4c..4c+3` of the block. -/
def blockOfBytes (b : List Byte) : Block := #v[wordOfBytes b 0, wordOfBytes b 1, wordOfBytes b 2, wordOfBytes b 3]

/-- The four bytes of a word, the first byte first (rule R10). -/
def bytesOfWord (v : Word) : List Byte := [byteOf v 0, byteOf v 1, byteOf v 2, byteOf v 3]

/-- `toBytes` (rule R46). -/
def bytesOfBlock (b : Block) : List Byte := bytesOfWord b[0] ++ bytesOfWord b[1] ++ bytesOfWord b[2] ++ bytesOfWord b[3]

/-- The key registers after `wrkey` from reset: bytes past the end of the key are zero (rules R82 and R121). -/
def keyRegsOf (key : List Byte) : KeyRegs :=
  #v[wordOfBytes key 0, wordOfBytes key 1, wordOfBytes key 2, wordOfBytes key 3, wordOfBytes key 4, wordOfBytes key 5,
     wordOfBytes key 6, wordOfBytes key 7]

/-- The expanded key of a key of 16, 24 or 32 bytes (rules R190 and R195). -/
def scheduleOf (key : List Byte) : Schedule := keyExpansion (keyRegsOf key) (key.length / 4)

/-- `Nr = Nk + 6` (rule R190). -/
def roundsOf (key : List Byte) : Nat := key.length / 4 + 6

/-! ## The procedures as functions (rules R270 and R271) -/

/-- How a host procedure ends. -/
inductive EcbResult where
  /-- The output bytes. -/
  | output (bytes : List Byte)
  /-- "The key-length error and no output" (rule R270). -/
  | keyLengthError
  /-- A ciphertext whose length is not a multiple of 16: "the procedure refuses it, with no output" (rule R271). -/
  | misaligned
deriving DecidableEq, Repr

/-- `ceil(L / 16)` (rule R270). -/
def chunkCount (len : Nat) : Nat := (len + 15) / 16

/-- Chunk `j`: 16 bytes of the message from `16j`, with zero bytes past its end (rule R270). -/
def chunk (m : List Byte) (j : Nat) : List Byte := (List.range 16).map fun i => byteAt m (16 * j + i)

/-- `ecbEncrypt(m, key)` (rule R270): the chunks, each enciphered on its own, in order. -/
def ecbEncrypt (m key : List Byte) : EcbResult :=
  if validKeyLen key.length then
    .output ((List.range (chunkCount m.length)).flatMap fun j =>
      bytesOfBlock (encryptBlock (scheduleOf key) (roundsOf key) (blockOfBytes (chunk m j))).1)
  else .keyLengthError

/-- `ecbDecrypt(c, key)` (rule R271): the key is validated first; then the length must be a multiple of 16. -/
def ecbDecrypt (c key : List Byte) : EcbResult :=
  if validKeyLen key.length then
    if c.length % 16 = 0 then
      .output ((List.range (c.length / 16)).flatMap fun j =>
        bytesOfBlock (decryptBlock (scheduleOf key) (roundsOf key) (blockOfBytes (chunk c j))).1)
    else .misaligned
  else .keyLengthError

/-! ## The host's notation (rules R119 to R121) -/

/-- `sw OFF, VAL` (rule R120). -/
def sw (off : BitVec 12) (v : Word) : Event := .transaction (hostWriteBits off v)

/-- `lw NAME, OFF` (rule R120): the value goes to the end of `reads`. -/
def lw (off : BitVec 12) : Event := .transaction (hostReadBits off)

/-- `aes.<name>`: `sw 0x008, <word>` (rule R119). -/
def aes (word : Word) : Event := sw 0x008 word

/-- `poll OFF, MASK, VAL` (rule R121): reads of OFF until one passes `pollDone`; here `failed` reads that do not, and the
one that does, with the core's turn between them where it is the completion that the host waits for. -/
def poll (off : BitVec 12) (failed : Nat) : List Event := List.replicate failed (lw off) ++ [.coreTurn, lw off]

/-- The host's decision in `poll`: it goes back to the read while `(t & MASK) != VAL` (rule R121). -/
def pollDone (mask val t : Word) : Bool := t &&& mask == val

/-- `aes.wait` (rule R121): STATUS is read until BUSY = 0, `poll STATUS, 1, 0`. `polls` reads come before the
completion step, and one after it; how many is not fixed (rule R331). -/
def aesWait (polls : Nat) : List Event := poll 0x004 polls

/-- The offset `BASE + 4j` (rule R121). -/
def offsetAt (base : BitVec 12) (j : Nat) : BitVec 12 := base + BitVec.ofNat 12 (4 * j)

/-- `wr128 BASE, H` (rule R121). -/
def wr128 (base : BitVec 12) (h : List Byte) : List Event :=
  (List.range 4).map fun j => sw (offsetAt base j) (wordOfBytes h j)

/-- `rd128 NAME, BASE` (rule R121). -/
def rd128 (base : BitVec 12) : List Event := (List.range 4).map fun j => lw (offsetAt base j)

/-- `wrkey H` for a key of K bytes: KEYLEN, then `min(ceil(K/4), 8)` key words (rule R121). -/
def wrkey (h : List Byte) : List Event :=
  sw 0x00C (BitVec.ofNat 32 (min h.length 255)) ::
    (List.range (min ((h.length + 3) / 4) 8)).map fun m => sw (offsetAt 0x010 m) (wordOfBytes h m)

/-- `clr`: `sw STATUS, 0x6` (rule R121). -/
def clr : Event := sw 0x004 0x6

/-! ## The procedure as events (the pseudocode of rule R270) -/

/-- `wrkey key; aes.key_expand; aes.wait; lw st, STATUS`. -/
def keyScript (key : List Byte) (polls : Nat) : List Event :=
  wrkey key ++ [aes 0x00000010] ++ aesWait polls ++ [lw 0x004]

/-- `if st[3] = 0: return KeyLengthError` (rule R270): the host's decision on the STATUS word it read last. -/
def keyRefused (st : Word) : Bool := !st.getLsbD 3

/-- One pass of the loop: `wr128 STATE0, chunk; aes.<command>; aes.wait; rd128 out, STATE0`. -/
def chunkScript (command : Word) (bytes : List Byte) (polls : Nat) : List Event :=
  wr128 0x030 bytes ++ [aes command] ++ aesWait polls ++ rd128 0x030

/-- The loop of rule R270 over the chunks of a message (`command` = 0x30), and that of rule R271 (0x31). Each pass waits on
its own: `polls j` is the number of failed polls of pass `j` (rule R331: a latency may differ "for each command"). -/
def messageScript (command : Word) (m : List Byte) (polls : Nat → Nat) : List Event :=
  (List.range (chunkCount m.length)).flatMap fun j => chunkScript command (chunk m j) (polls j)

/-! ## What the host has read (rules R121 and R270) -/

/-- How many values the procedure's key steps read: the failed polls, the last one, and `lw st, STATUS`. -/
def keyReads (polls : Nat) : Nat := polls + 2

/-- How many values the passes before pass `j` read: in each the failed polls, the last one, and `rd128`'s four. -/
def readsBefore (polls : Nat → Nat) (j : Nat) : Nat := ((List.range j).map fun i => polls i + 5).sum

/-- The four values that `rd128 out[16j..16j+15], STATE0` read in pass `j`, where `reads` starts with pass 0. -/
def chunkReads (polls : Nat → Nat) (reads : List Word) (j : Nat) : List Word :=
  (reads.drop (readsBefore polls j + (polls j + 1))).take 4

end Sys2Proof.Machine
end

