-- ==== Sys2Proof/Safety.lean ====
section
/-! DEFINITION. Safety: what claims about runs use: running the machine for a number of steps or over a list of commands,
the end of a run (rule R330), and the invariant that every step keeps. -/

namespace Sys2Proof.Machine

/-- `n` steps, one after the other, while each answers a next state. -/
def runSteps : Nat → State → Result
  | 0, s => .next s
  | n + 1, s =>
    match step s with
    | .next t => runSteps n t
    | .fault r => .fault r
    | .refused r => .refused r

/-- The completion steps of a list of commands, one after the other (rule R91: "commands run in the order the host writes
them to CMD"). -/
def execAll : List Instr → State → Result
  | [], s => .next s
  | i :: is, s =>
    match exec i s with
    | .next t => execAll is t
    | .fault r => .fault r
    | .refused r => .refused r

/-- The end of a run (rule R330): "the host has issued its last transaction and PHASE = IDLE". -/
abbrev State.ended (s : State) : Prop := s.events = [] ∧ s.phase = .idle

/-- The schedule's fields say the truth about `W` (rules R37, R39 and R40): with KEY_VALID = 1 the key length is legal, W
is the expanded key of the key registers, NK and NR are its numbers and the cursor lies in 0..NR+1; with KEY_VALID = 0
everything is cleared. -/
abbrev State.ScheduleInv (s : State) : Prop :=
  if s.keyValid then
    validKeyLen s.keyLen.toNat = true ∧ s.nk.toNat = s.keyLen.toNat / 4 ∧ s.nr.toNat = s.nk.toNat + 6 ∧
      s.cursor.toNat ≤ s.nr.toNat + 1 ∧ s.w = keyExpansion s.key s.nk.toNat
  else s.nk = 0 ∧ s.nr = 0 ∧ s.cursor = 0 ∧ s.w = clearedSchedule

/-- The STATUS flags fit together: DONE is 0 while BUSY = 1 (rules R35 and R56), and ERRCODE is 0 exactly when ERR is 0
(rules R36 and R38). -/
abbrev State.StatusInv (s : State) : Prop :=
  (s.phase = .busy → s.done = false) ∧ (s.err = false ↔ s.errCode = .noError)

/-- The invariant that reset has and every step keeps. -/
abbrev State.Inv (s : State) : Prop := s.ScheduleInv ∧ s.StatusInv

end Sys2Proof.Machine
end

