-- ==== Sys2Proof/Certificates/Slice0/Obligations.lean ====
section
/-! DEFINITION. Obligations: the statements for the provers. Each docstring names the rules of spec/ it formalises. A next
state is written out as a record update, so that every field not named in it is unchanged: that is the statement's frame. -/

open Sys2Proof Sys2Proof.Machine

/-! ## Reset, steps and runs -/

/-- R320 (70_reset_and_hazards.md): a step that samples `rst` high gives every piece of state its reset value, whatever the
state was; the core's fields of `State.reset` have these values (its three fields that are the host's are not spoken of). -/
def Obligations.ResetEventGivesResetValues : Prop :=
  ∀ (s : State) (lost : Option Transaction) (rest : List Event), s.events = .reset lost :: rest →
    ∃ t, step s = .next t ∧ t.ie = false ∧ t.phase = .idle ∧ t.done = false ∧ t.err = false ∧ t.errCode = .noError ∧
      t.keyValid = false ∧ t.nk = 0 ∧ t.nr = 0 ∧ t.cursor = 0 ∧ t.latch = 0 ∧ t.keyLen = 0 ∧ (∀ m : Fin 8, t.key[m] = 0) ∧
      (∀ j : Fin 4, t.block[j] = 0 ∧ t.rk[j] = 0) ∧ t.gfA = 0 ∧ t.gfB = 0 ∧ t.gfR = 0 ∧ (∀ j : Fin 60, t.w[j] = 0) ∧
      t.irq = false ∧ t = { State.reset with events := t.events, reads := t.reads, draws := t.draws }

/-- R321: a reset abandons the running command, whose completion step is never taken: the core's next turn finds nothing to
do; and the host's transaction of the same cycle is lost: the state does not depend on it. That what the host has read, its
further moves and the model's counter stay is the model's choice (log 4). -/
def Obligations.ResetAbandonsTheRunningCommand : Prop :=
  ∀ (s : State) (lost : Option Transaction) (rest : List Event), s.events = .reset lost :: .coreTurn :: rest →
    step s = .next { State.reset with events := .coreTurn :: rest, reads := s.reads, draws := s.draws } ∧
    runSteps 2 s = .next { State.reset with events := rest, reads := s.reads, draws := s.draws }

/-- The invariant of Safety.lean holds at reset (rules R320, R37 to R40). -/
def Obligations.ResetMeetsTheInvariant : Prop := State.reset.Inv

/-- Every step keeps the invariant, from every state that has it: KEY_VALID = 1 means that `W` is the expanded key of the
key registers with a legal KEYLEN, that NK and NR are its numbers and that CURSOR lies in 0..NR+1; KEY_VALID = 0 means
that all of them are cleared (R37, R39, R40, R45, R50); DONE is 0 while BUSY (R35, R56); ERRCODE is 0 exactly when ERR is 0
(R36, R38). -/
def Obligations.StepKeepsTheInvariant : Prop := ∀ s t : State, s.Inv → step s = .next t → t.Inv

/-- R290 and R116: no step and no instruction ends in a fault or a refusal: "The core raises no trap, exception or fault",
and every word and every transaction has its effect. -/
def Obligations.NothingStopsTheMachine : Prop :=
  (∀ s : State, ∃ t, step s = .next t) ∧ ∀ (i : Instr) (s : State), ∃ t, exec i s = .next t

/-- R34 and R331 (weak fairness): an accepted command completes, whatever the host does meanwhile short of a reset, and no
later than one step after the host's last move; the command latched is still the one that was accepted. The bound is that of
the model's list of events (log 1). -/
def Obligations.AcceptedCommandCompletes : Prop :=
  ∀ s : State, s.phase = .busy → (∀ e ∈ s.events, ∀ lost, e ≠ .reset lost) →
    ∃ k t, k ≤ s.events.length + 1 ∧ runSteps k s = .next t ∧ t.phase = .idle ∧ t.done = true ∧ t.latch = s.latch

/-- A step runs the decoded instruction (R91, R116): a host transaction on top of the events; else, while BUSY, the
completion step of the latched word; and the idle core rests (R322). A transaction is any 45 bits, the ignored data bits of a
read included (R111). What step adds around `exec` is only that the event is taken off the list, the model's own (log 1). -/
def Obligations.StepRunsTheDecodedInstruction : Prop :=
  (∀ (s : State) (b : Transaction) (rest : List Event), s.events = .transaction b :: rest →
    step s = exec (decodeTransaction b) { s with events := rest }) ∧
  (∀ (s : State) (i : Instr) (b : Transaction) (rest : List Event), i.wellFormed = true → encode i = .transaction b →
    s.events = .transaction b :: rest → step s = exec i { s with events := rest }) ∧
  (∀ (s : State) (i : Instr), i.wellFormed = true → encode i = .command s.latch → s.phase = .busy →
    (s.events = [] ∨ ∃ rest, s.events = .coreTurn :: rest) → step s = exec i { s with events := s.events.tail }) ∧
  (∀ s : State, s.phase = .idle → (s.events = [] ∨ ∃ rest, s.events = .coreTurn :: rest) →
    step s = .next { s with events := s.events.tail })

/-- R116, R42 and R34: a command word written to CMD by an idle core's host, and then the core's turn, is the completion
step of that command on the registers as they were at acceptance. The two moves are the model's events (log 1). -/
def Obligations.CommandWrittenToCmdRuns : Prop :=
  ∀ (s : State) (i : Instr) (v : Word) (rest : List Event), s.phase = .idle → i.wellFormed = true →
    encode i = .command v → s.events = sw 0x008 v :: .coreTurn :: rest →
    runSteps 2 s = exec i { s with latch := v, phase := .busy, done := false, events := rest }

/-! ## Encoding -/

/-- Decoding the encoding of a well-formed instruction gives it back, for every command of R115 and both transactions of
R111, with every operand at every value. -/
def Obligations.DecodeOfEncodeIsTheInstruction : Prop :=
  ∀ i : Instr, i.wellFormed = true → decode (encode i) = .instr i

/-- The other direction: every command word that decodes is the word of the instruction it decodes to, and a transaction is
the encoding of its instruction, but for the data bits of a read, which are ignored (R111, R116). That the encoder writes
these bits as zeros is the model's choice (log 11). -/
def Obligations.EncodeOfDecodeIsTheWord : Prop :=
  (∀ (v : Word) (i : Instr), decodeCommand v = .instr i → i.wellFormed = true ∧ i.isCommand = true ∧ encode i = .command v) ∧
  (∀ b : Transaction, b.getLsbD 44 = true → encode (decodeTransaction b) = .transaction b) ∧
  (∀ b : Transaction, b.getLsbD 44 = false →
    encode (decodeTransaction b) = .transaction (b &&& 0x0FFF00000000#45))

/-- A few words written out from the tables of R111, R112, R113 and R115. -/
def Obligations.WrittenOutWordsDecode : Prop :=
  decodeCommand 0b00000000000000000000000000000011#32 = .instr .gfMul ∧
  decodeCommand 0b00000000000000000000000000010000#32 = .instr .keyExpand ∧
  decodeCommand 0b00000000000000000000101000010101#32 = .instr (.rkLoad 10) ∧
  decodeCommand 0b00000000000000000000000000100100#32 = .instr .mixColumns ∧
  decodeCommand 0b00000000000000000000000000110001#32 = .instr .decBlock ∧
  decodeCommand 0b00000000000000000000000100010011#32 = .illegal .reservedBits ∧
  decodeTransaction 0b100000000110000000000000000000000000000010000#45 = .hostWrite 0x00C 16 ∧
  decodeTransaction 0b000000000010000000000000000000000000000000000#45 = .hostRead 0x004

/-- R117: which words are illegal, that each raises E_OPCODE at its completion step and changes no data state, and that no
encoding but 0x00000000 is the NOP. -/
def Obligations.IllegalWordsRecordOpcodeError : Prop :=
  (∀ v : Word,
    let op := (v &&& 0xFF).toNat
    (∃ why, decodeCommand v = .illegal why) ↔
      ((0x07 ≤ op ∧ op ≤ 0x0F) ∨ (0x16 ≤ op ∧ op ≤ 0x1F) ∨ (0x27 ≤ op ∧ op ≤ 0x2F) ∨ (0x32 ≤ op ∧ op ≤ 0xFF)) ∨
      (op ≠ 0x15 ∧ v >>> 8 ≠ 0) ∨ (op = 0x15 ∧ v >>> 12 ≠ 0)) ∧
  (∀ (s : State) (why : IllegalWord), s.phase = .busy → (s.events = [] ∨ ∃ rest, s.events = .coreTurn :: rest) →
    decodeCommand s.latch = .illegal why →
    step s = .next { s with events := s.events.tail, err := true, errCode := .opcode, phase := .idle, done := true }) ∧
  (∀ v : Word, decodeCommand v = .instr .nop → v = 0x00000000)

/-! ## The field unit -/

/-- R150, GF_BITTEST. -/
def Obligations.GfBittestResult : Prop :=
  decodeCommand 0x00000001 = .instr .gfBittest ∧
  (∀ s : State, exec .gfBittest s = .next { s with
    gfR := if s.gfB.toNat < 8 ∧ s.gfA.toNat.testBit s.gfB.toNat = true then 0x01 else 0x00, phase := .idle, done := true }) ∧
  ∀ s : State, s.gfA = 0x57 → s.gfB = 0x04 → ∃ t, exec .gfBittest s = .next t ∧ t.gfR = 0x01

/-- R151 and R142, GF_XTIME: the formula, the value as `a(x) * x mod 0x11B`, and the corner cases. -/
def Obligations.GfXtimeResult : Prop :=
  decodeCommand 0x00000002 = .instr .gfXtime ∧
  (∀ s : State, ∃ v : Byte,
    exec .gfXtime s = .next { s with gfR := v, phase := .idle, done := true } ∧
    v = ((s.gfA <<< 1) &&& 0xFF) ^^^ (if s.gfA.getLsbD 7 then 0x1B else 0x00) ∧
    v.toNat = (if 2 * s.gfA.toNat < 256 then 2 * s.gfA.toNat else (2 * s.gfA.toNat) ^^^ 0x11B)) ∧
  ∀ s : State, ∃ t, exec .gfXtime s = .next t ∧ (s.gfA = 0x00 → t.gfR = 0x00) ∧ (s.gfA = 0x80 → t.gfR = 0x1B) ∧
    (s.gfA = 0xFF → t.gfR = 0xE5) ∧ (s.gfA = 0x57 → t.gfR = 0xAE)

/-- R152, GF_MUL: the result is the product of the two polynomials modulo 0x11B (R143), stated by polynomial multiplication
and reduction of numbers, not by the add-and-shift loop of the model; with the rule's corner cases and its example. -/
def Obligations.GfMulIsPolynomialProduct : Prop :=
  decodeCommand 0x00000003 = .instr .gfMul ∧
  ∀ s : State, ∃ v : Byte, exec .gfMul s = .next { s with gfR := v, phase := .idle, done := true } ∧
    v = mul s.gfA s.gfB ∧ v.toNat = polyMod (polyMul s.gfA.toNat s.gfB.toNat) ∧
    (s.gfA = 0x00 ∨ s.gfB = 0x00 → v = 0x00) ∧ (s.gfB = 0x01 → v = s.gfA) ∧ (s.gfB = 0x02 → v = xtime s.gfA) ∧
    v = mul s.gfB s.gfA ∧ (s.gfA = 0x57 → s.gfB = 0x83 → v = 0xC1)

/-- R144, the laws of `mul`; the last two are the rule's own derivations from R143. -/
def Obligations.MulLaws : Prop :=
  (∀ a b : Byte, mul a b = mul b a) ∧ ∀ a : Byte, mul a 0x01 = a ∧ mul a 0x00 = 0x00 ∧ mul a 0x02 = xtime a

/-- R145: for `a != 0`, `inv(a)` is THE byte `b` with `mul(a, b) = 0x01`; `inv(0) = 0`; `inv(inv(a)) = a` (the rule's own
derivation). -/
def Obligations.InverseIsTheUniqueFieldInverse : Prop :=
  (∀ a b : Byte, a ≠ 0x00 → (mul a b = 0x01 ↔ b = inv a)) ∧ inv 0x00 = 0x00 ∧ ∀ a : Byte, inv (inv a) = a

/-- R153, GF_INV. -/
def Obligations.GfInvResult : Prop :=
  decodeCommand 0x00000004 = .instr .gfInv ∧
  ∀ s : State, ∃ b : Byte, exec .gfInv s = .next { s with gfR := b, phase := .idle, done := true } ∧
    (s.gfA = 0x00 → b = 0x00) ∧ (s.gfA ≠ 0x00 → mul s.gfA b = 0x01) ∧ (s.gfA = 0x01 → b = 0x01) ∧
    (s.gfA = 0x53 → b = 0xCA)

/-- R171, R173, R180 and R181: GF_SBOX and GF_INVSBOX give the bytes of the tables of 41_sbox.md section 2 (which the spec
derives from R171 and R173). -/
def Obligations.SboxCommandsGiveTheTables : Prop :=
  decodeCommand 0x00000005 = .instr .gfSbox ∧ decodeCommand 0x00000006 = .instr .gfInvsbox ∧
  ∀ s : State,
    (∃ v : Byte, exec .gfSbox s = .next { s with gfR := v, phase := .idle, done := true } ∧ sboxTable[s.gfA.toNat]? = some v) ∧
    (∃ v : Byte, exec .gfInvsbox s = .next { s with gfR := v, phase := .idle, done := true } ∧
      invSboxTable[s.gfA.toNat]? = some v)

/-- R170 and R172 bit by bit: each output bit of `affine` is the XOR of five input bits and a bit of 0x63; of `invAffine`, of
three input bits and a bit of 0x05; the second undoes the first. The selections are marked in the spec as general knowledge
(93_implementation_defined.md G1 and G2). -/
def Obligations.AffineBitSelections : Prop :=
  (∀ (b : Byte) (i : Fin 8), (affine b).getLsbD i =
    (b.getLsbD i ^^ b.getLsbD ((i + 4) % 8) ^^ b.getLsbD ((i + 5) % 8) ^^ b.getLsbD ((i + 6) % 8) ^^
      b.getLsbD ((i + 7) % 8) ^^ (0x63 : Byte).getLsbD i)) ∧
  (∀ (b : Byte) (i : Fin 8), (invAffine b).getLsbD i =
    (b.getLsbD ((i + 7) % 8) ^^ b.getLsbD ((i + 5) % 8) ^^ b.getLsbD ((i + 2) % 8) ^^ (0x05 : Byte).getLsbD i)) ∧
  ∀ b : Byte, invAffine (affine b) = b

/-- R174: the required round trip, the bijection, and (the rule's own derivation) no fixed point and no complement. -/
def Obligations.SboxRoundTrip : Prop :=
  (∀ x : Byte, invSbox (sbox x) = x ∧ sbox (invSbox x) = x) ∧ Function.Bijective sbox ∧
  ∀ x : Byte, sbox x ≠ x ∧ sbox x ≠ ~~~x

/-! ## Key schedule and cursor -/

/-- R192, R193 and R194: the word functions of the key expansion, byte by byte, and the round constants of the table of R194
with the recurrence that makes them. -/
def Obligations.KeyWordFunctions : Prop :=
  (∀ w0 w1 w2 w3 : Byte, rotWord (word32 w0 w1 w2 w3) = word32 w1 w2 w3 w0) ∧
  (∀ w0 w1 w2 w3 : Byte, subWord (word32 w0 w1 w2 w3) = word32 (sbox w0) (sbox w1) (sbox w2) (sbox w3)) ∧
  (∀ p : Nat, rcon (p + 2) = word32 (xtime (byteOf (rcon (p + 1)) 0)) 0x00 0x00 0x00) ∧
  (List.range 10).map (fun p => rcon (p + 1)) =
    [0x01000000, 0x02000000, 0x04000000, 0x08000000, 0x10000000, 0x20000000, 0x40000000, 0x80000000, 0x1b000000, 0x36000000]

/-- R195: KEY_EXPAND with a legal key length leaves in `W` the key words, then the recurrence, then zeros, and sets the
schedule's STATUS fields as R200 says; nothing else changes. -/
def Obligations.KeyExpandBuildsTheSchedule : Prop :=
  ∀ s : State, (s.keyLen.toNat = 16 ∨ s.keyLen.toNat = 24 ∨ s.keyLen.toNat = 32) →
    ∃ t nk nr, exec .keyExpand s = .next t ∧ 4 * nk = s.keyLen.toNat ∧ nr = nk + 6 ∧
      t = { s with w := t.w, keyValid := true, nk := BitVec.ofNat 4 nk, nr := BitVec.ofNat 4 nr, cursor := 0,
                   phase := .idle, done := true } ∧
      (∀ i : Nat, i < nk → t.w[i]? = s.key[i]?) ∧
      (∀ i : Nat, nk ≤ i → i < 4 * (nr + 1) → ∃ prev back : Word, t.w[i - 1]? = some prev ∧ t.w[i - nk]? = some back ∧
        t.w[i]? = some (back ^^^
          (if i % nk = 0 then subWord (rotWord prev) ^^^ rcon (i / nk)
           else if 6 < nk ∧ i % nk = 4 then subWord prev else prev))) ∧
      (∀ i : Nat, 4 * (nr + 1) ≤ i → i < 60 → t.w[i]? = some 0)

/-- R200 and R293: with any other key length KEY_EXPAND records E_KEYLEN and writes no word of W; in a state with the
invariant KEY_VALID is 0 then. -/
def Obligations.KeyExpandRejectsOtherLengths : Prop :=
  decodeCommand 0x00000010 = .instr .keyExpand ∧
  ∀ s : State, s.keyLen.toNat ≠ 16 → s.keyLen.toNat ≠ 24 → s.keyLen.toNat ≠ 32 →
    exec .keyExpand s = .next { s with err := true, errCode := .keyLen, phase := .idle, done := true } ∧
    (s.Inv → s.keyValid = false)

/-- R294 and R299: without a valid schedule every command that needs one records E_NOKEY and nothing else, whatever the
cursor and the index are. -/
def Obligations.NoScheduleMeansNoKeyError : Prop :=
  ∀ (s : State) (i : Instr), s.keyValid = false →
    (i ∈ [Instr.rkResetFwd, .rkResetBwd, .rkNextEnc, .rkNextDec, .encBlock, .decBlock] ∨ ∃ n, i = .rkLoad n) →
    exec i s = .next { s with err := true, errCode := .noKey, phase := .idle, done := true }

/-- R201 and R202, RK_RESET_FWD and RK_RESET_BWD: the error, the cursor at the start or the end, and idempotence. -/
def Obligations.CursorResets : Prop :=
  decodeCommand 0x00000011 = .instr .rkResetFwd ∧ decodeCommand 0x00000012 = .instr .rkResetBwd ∧
  ∀ s : State,
    (s.keyValid = false →
      exec .rkResetFwd s = .next { s with err := true, errCode := .noKey, phase := .idle, done := true } ∧
      exec .rkResetBwd s = .next { s with err := true, errCode := .noKey, phase := .idle, done := true }) ∧
    (s.keyValid = true → exec .rkResetFwd s = .next { s with cursor := 0, phase := .idle, done := true }) ∧
    (s.keyValid = true → s.nr.toNat ≤ 14 →
      ∃ c : BitVec 4, c.toNat = s.nr.toNat + 1 ∧
        exec .rkResetBwd s = .next { s with cursor := c, phase := .idle, done := true }) ∧
    execAll [.rkResetFwd, .rkResetFwd] s = exec .rkResetFwd s ∧ execAll [.rkResetBwd, .rkResetBwd] s = exec .rkResetBwd s

/-- R203, RK_NEXT_ENC: its two errors, and round key `p` with the cursor one further. -/
def Obligations.RkNextEncTakesTheNextKey : Prop :=
  decodeCommand 0x00000013 = .instr .rkNextEnc ∧
  ∀ s : State,
    (s.keyValid = false →
      exec .rkNextEnc s = .next { s with err := true, errCode := .noKey, phase := .idle, done := true }) ∧
    (s.keyValid = true → s.cursor.toNat = s.nr.toNat + 1 →
      exec .rkNextEnc s = .next { s with err := true, errCode := .cursor, phase := .idle, done := true }) ∧
    (s.keyValid = true → s.nr.toNat ≤ 14 → s.cursor.toNat ≤ s.nr.toNat →
      ∃ t, exec .rkNextEnc s = .next t ∧ t = { s with rk := t.rk, cursor := t.cursor, phase := .idle, done := true } ∧
        t.cursor.toNat = s.cursor.toNat + 1 ∧ ∀ j : Fin 4, s.w[4 * s.cursor.toNat + j.val]? = some t.rk[j])

/-- R204, RK_NEXT_DEC: its two errors, and round key `p - 1` with the cursor one back. -/
def Obligations.RkNextDecTakesTheKeyBehind : Prop :=
  decodeCommand 0x00000014 = .instr .rkNextDec ∧
  ∀ s : State,
    (s.keyValid = false →
      exec .rkNextDec s = .next { s with err := true, errCode := .noKey, phase := .idle, done := true }) ∧
    (s.keyValid = true → s.cursor.toNat = 0 →
      exec .rkNextDec s = .next { s with err := true, errCode := .cursor, phase := .idle, done := true }) ∧
    (s.keyValid = true → 0 < s.cursor.toNat →
      ∃ t, exec .rkNextDec s = .next t ∧ t = { s with rk := t.rk, cursor := t.cursor, phase := .idle, done := true } ∧
        t.cursor.toNat + 1 = s.cursor.toNat ∧ ∀ j : Fin 4, s.w[4 * (s.cursor.toNat - 1) + j.val]? = some t.rk[j])

/-- R205, RK_LOAD: its two errors, and round key N with the cursor untouched. -/
def Obligations.RkLoadTakesTheIndexedKey : Prop :=
  ∀ (n : Nat), n ≤ 15 →
    decodeCommand (0x00000015 ||| (BitVec.ofNat 32 n <<< 8)) = .instr (.rkLoad n) ∧
    ∀ s : State,
      (s.keyValid = false →
        exec (.rkLoad n) s = .next { s with err := true, errCode := .noKey, phase := .idle, done := true }) ∧
      (s.keyValid = true → s.nr.toNat < n →
        exec (.rkLoad n) s = .next { s with err := true, errCode := .rkIndex, phase := .idle, done := true }) ∧
      (s.keyValid = true → s.nr.toNat ≤ 14 → n ≤ s.nr.toNat →
        ∃ t, exec (.rkLoad n) s = .next t ∧ t = { s with rk := t.rk, phase := .idle, done := true } ∧
          ∀ j : Fin 4, s.w[4 * n + j.val]? = some t.rk[j])

/-- R197 and R203: from the start, `k` RK_NEXT_ENC commands leave the cursor at `k` and round key `k - 1` in RK; from the
end, `k` RK_NEXT_DEC commands leave it at `NR + 1 - k` with round key `NR + 1 - k`. No error is recorded on the way. -/
def Obligations.CursorWalksTheSchedule : Prop :=
  ∀ (s : State) (k : Nat), s.keyValid = true → s.nr.toNat ≤ 14 → 0 < k → k ≤ s.nr.toNat + 1 →
    (s.cursor.toNat = 0 → ∃ t, execAll (List.replicate k .rkNextEnc) s = .next t ∧
      t = { s with rk := roundKey s.w (k - 1), cursor := BitVec.ofNat 4 k, phase := .idle, done := true }) ∧
    (s.cursor.toNat = s.nr.toNat + 1 → ∃ t, execAll (List.replicate k .rkNextDec) s = .next t ∧
      t = { s with rk := roundKey s.w (s.nr.toNat + 1 - k), cursor := BitVec.ofNat 4 (s.nr.toNat + 1 - k),
                   phase := .idle, done := true })

/-- R204: RK_NEXT_ENC and then RK_NEXT_DEC load the same round key twice and restore the cursor. -/
def Obligations.CursorStepsUndoEachOther : Prop :=
  ∀ s : State, s.keyValid = true → s.nr.toNat ≤ 14 → s.cursor.toNat ≤ s.nr.toNat →
    ∃ t, exec .rkNextEnc s = .next t ∧
      exec .rkNextDec t = .next { s with rk := t.rk, phase := .idle, done := true }

/-! ## Round transforms -/

/-- R240 and R241, SUB_BYTES and INV_SUB_BYTES: every byte of the state on its own; nothing but STATE changes; the
second after the first restores any state; with the rules' corner cases and examples. -/
def Obligations.SubBytesActsOnEveryByte : Prop :=
  decodeCommand 0x00000020 = .instr .subBytes ∧ decodeCommand 0x00000021 = .instr .invSubBytes ∧
  ∀ s : State,
    (∃ t, exec .subBytes s = .next t ∧ t = { s with block := t.block, phase := .idle, done := true } ∧
      (∀ r c : Fin 4, byteOf t.block[c] r = sbox (byteOf s.block[c] r)) ∧
      (s.block = #v[0x00112233, 0x44556677, 0x8899aabb, 0xccddeeff] →
        t.block = #v[0x638293c3, 0x1bfc33f5, 0xc4eeacea, 0x4bc12816]) ∧
      (s.block = Vector.replicate 4 0x00000000 → t.block = Vector.replicate 4 0x63636363) ∧
      exec .invSubBytes t = .next { s with phase := .idle, done := true }) ∧
    (∃ t, exec .invSubBytes s = .next t ∧ t = { s with block := t.block, phase := .idle, done := true } ∧
      (∀ r c : Fin 4, byteOf t.block[c] r = invSbox (byteOf s.block[c] r)) ∧
      (s.block = #v[0x00112233, 0x44556677, 0x8899aabb, 0xccddeeff] →
        t.block = #v[0x52e39466, 0x86edd302, 0x97f962fe, 0x27c9997d]) ∧
      (s.block = Vector.replicate 4 0x63636363 → t.block = Vector.replicate 4 0x00000000))

/-- R242, R243, R233 and R234, SHIFT_ROWS and INV_SHIFT_ROWS: byte `c` of row `r` is the old byte `c + r` (`c - r`) mod 4 of
the row; four SHIFT_ROWS restore the state and three are one INV_SHIFT_ROWS. -/
def Obligations.ShiftRowsMovesRowBytes : Prop :=
  decodeCommand 0x00000022 = .instr .shiftRows ∧ decodeCommand 0x00000023 = .instr .invShiftRows ∧
  ∀ s : State,
    (∃ t, exec .shiftRows s = .next t ∧ t = { s with block := t.block, phase := .idle, done := true } ∧
      (∀ r c d : Fin 4, d.val = (c.val + r.val) % 4 → byteOf t.block[c] r = byteOf s.block[d] r) ∧
      (s.block = #v[0x00112233, 0x44556677, 0x8899aabb, 0xccddeeff] →
        t.block = #v[0x0055aaff, 0x4499ee33, 0x88dd2277, 0xcc1166bb])) ∧
    (∃ t, exec .invShiftRows s = .next t ∧ t = { s with block := t.block, phase := .idle, done := true } ∧
      (∀ r c d : Fin 4, d.val = (c.val + 4 - r.val) % 4 → byteOf t.block[c] r = byteOf s.block[d] r) ∧
      (s.block = #v[0x00112233, 0x44556677, 0x8899aabb, 0xccddeeff] →
        t.block = #v[0x00ddaa77, 0x4411eebb, 0x885522ff, 0xcc996633])) ∧
    execAll (List.replicate 4 .shiftRows) s = .next { s with phase := .idle, done := true } ∧
    execAll (List.replicate 3 .shiftRows) s = exec .invShiftRows s

/-- R244 and R245, MIX_COLUMNS and INV_MIX_COLUMNS: row by row of the circulant matrices, every column from its old bytes.
The matrix rows are marked in the spec as general knowledge (93_implementation_defined.md G3 and G4). -/
def Obligations.MixColumnsMultipliesColumns : Prop :=
  decodeCommand 0x00000024 = .instr .mixColumns ∧ decodeCommand 0x00000025 = .instr .invMixColumns ∧
  ∀ s : State,
    (∃ t, exec .mixColumns s = .next t ∧ t = { s with block := t.block, phase := .idle, done := true } ∧
      ∀ c : Fin 4,
        let a := fun r => byteOf s.block[c] r
        byteOf t.block[c] 0 = mul 0x02 (a 0) ^^^ mul 0x03 (a 1) ^^^ a 2 ^^^ a 3 ∧
        byteOf t.block[c] 1 = a 0 ^^^ mul 0x02 (a 1) ^^^ mul 0x03 (a 2) ^^^ a 3 ∧
        byteOf t.block[c] 2 = a 0 ^^^ a 1 ^^^ mul 0x02 (a 2) ^^^ mul 0x03 (a 3) ∧
        byteOf t.block[c] 3 = mul 0x03 (a 0) ^^^ a 1 ^^^ a 2 ^^^ mul 0x02 (a 3)) ∧
    (∃ t, exec .invMixColumns s = .next t ∧ t = { s with block := t.block, phase := .idle, done := true } ∧
      ∀ c : Fin 4,
        let a := fun r => byteOf s.block[c] r
        byteOf t.block[c] 0 = mul 0x0e (a 0) ^^^ mul 0x0b (a 1) ^^^ mul 0x0d (a 2) ^^^ mul 0x09 (a 3) ∧
        byteOf t.block[c] 1 = mul 0x09 (a 0) ^^^ mul 0x0e (a 1) ^^^ mul 0x0b (a 2) ^^^ mul 0x0d (a 3) ∧
        byteOf t.block[c] 2 = mul 0x0d (a 0) ^^^ mul 0x09 (a 1) ^^^ mul 0x0e (a 2) ^^^ mul 0x0b (a 3) ∧
        byteOf t.block[c] 3 = mul 0x0b (a 0) ^^^ mul 0x0d (a 1) ^^^ mul 0x09 (a 2) ^^^ mul 0x0e (a 3))

/-- R246 and R237, ADD_ROUND_KEY: byte by byte the XOR with RK, with or without a valid schedule; RK stays; twice restores
the state. -/
def Obligations.AddRoundKeyXorsTheRoundKey : Prop :=
  decodeCommand 0x00000026 = .instr .addRoundKey ∧
  ∀ s : State, ∃ t, exec .addRoundKey s = .next t ∧ t = { s with block := t.block, phase := .idle, done := true } ∧
    (∀ c : Fin 4, t.block[c] = s.block[c] ^^^ s.rk[c]) ∧
    (∀ r c : Fin 4, byteOf t.block[c] r = byteOf s.block[c] r ^^^ byteOf s.rk[c] r) ∧
    exec .addRoundKey t = .next { s with phase := .idle, done := true } ∧
    (s.rk = Vector.replicate 4 0 → t.block = s.block) ∧ (s.rk = s.block → t.block = Vector.replicate 4 0) ∧
    (s.block = #v[0x00112233, 0x44556677, 0x8899aabb, 0xccddeeff] →
      s.rk = #v[0x00010203, 0x04050607, 0x08090a0b, 0x0c0d0e0f] →
      t.block = #v[0x00102030, 0x40506070, 0x8090a0b0, 0xc0d0e0f0])

/-- R232, R234, R236 and R241, R243, R245: each transform and its inverse, in either order, restore any state. -/
def Obligations.InverseTransformsRestoreTheState : Prop :=
  ∀ (s : State) (f g : Instr),
    (f, g) ∈ [(Instr.subBytes, Instr.invSubBytes), (.shiftRows, .invShiftRows), (.mixColumns, .invMixColumns)] →
    execAll [f, g] s = .next { s with phase := .idle, done := true } ∧
    execAll [g, f] s = .next { s with phase := .idle, done := true }

/-! ## The block driver -/

/-- R265, NOP: only the completion; its irq drops at acceptance and is IE at completion; a recorded error stays.
The turn of the core is a move of the model's events (log 1). -/
def Obligations.NopOnlyCompletes : Prop :=
  decodeCommand 0x00000000 = .instr .nop ∧
  (∀ s : State, exec .nop s = .next { s with phase := .idle, done := true }) ∧
  ∀ (s : State) (rest : List Event), s.phase = .idle → s.events = aes 0x00000000 :: .coreTurn :: rest →
    ∃ t u, step s = .next t ∧ step t = .next u ∧ t.irq = false ∧ u.irq = s.ie ∧ t.phase = .busy ∧
      u = { s with latch := 0x00000000, done := true, events := rest }

/-- R266 and R260: ENC_BLOCK is the block that the primitive commands make, round by round with the round keys in ascending
order, on the state it finds, whatever the cursor was; it leaves CURSOR = NR + 1, and RK as it was. -/
def Obligations.EncBlockEqualsThePrimitiveCommands : Prop :=
  decodeCommand 0x00000030 = .instr .encBlock ∧
  ∀ s : State, s.keyValid = true → 1 ≤ s.nr.toNat → s.nr.toNat ≤ 14 →
    ∃ t u, exec .encBlock s = .next t ∧ execAll (encProgram s.nr.toNat) s = .next u ∧ t.block = u.block ∧
      t.cursor = u.cursor ∧ t.cursor.toNat = s.nr.toNat + 1 ∧
      t = { s with block := t.block, cursor := t.cursor, phase := .idle, done := true } ∧
      u = { t with rk := roundKey s.w s.nr.toNat }

/-- R267 and R261: DEC_BLOCK is the block that the primitive commands of program 3 make; it leaves CURSOR = 0. -/
def Obligations.DecBlockEqualsThePrimitiveCommands : Prop :=
  decodeCommand 0x00000031 = .instr .decBlock ∧
  ∀ s : State, s.keyValid = true → 1 ≤ s.nr.toNat → s.nr.toNat ≤ 14 →
    ∃ t u, exec .decBlock s = .next t ∧ execAll (decProgram s.nr.toNat) s = .next u ∧ t.block = u.block ∧
      t.cursor = u.cursor ∧ t.cursor.toNat = 0 ∧
      t = { s with block := t.block, cursor := t.cursor, phase := .idle, done := true } ∧
      u = { t with rk := roundKey s.w 0 }

/-- R262: DEC_BLOCK undoes ENC_BLOCK, and ENC_BLOCK undoes DEC_BLOCK, for every state with a valid schedule. -/
def Obligations.DecryptionUndoesEncryption : Prop :=
  ∀ s : State, s.keyValid = true → s.nr.toNat ≤ 14 →
    execAll [.encBlock, .decBlock] s = .next { s with cursor := 0, phase := .idle, done := true } ∧
    ∃ c : BitVec 4, c.toNat = s.nr.toNat + 1 ∧
      execAll [.decBlock, .encBlock] s = .next { s with cursor := c, phase := .idle, done := true }

/-- The source's three known answers (95_test_vectors.md section 1.1): KEY_EXPAND and ENC_BLOCK on the test plaintext, from
any state with the key registers set, for the 16-, 24- and 32-byte keys. -/
def Obligations.KnownAnswers : Prop :=
  ∀ s : State, s.block = #v[0x00112233, 0x44556677, 0x8899aabb, 0xccddeeff] →
    s.key = #v[0x00010203, 0x04050607, 0x08090a0b, 0x0c0d0e0f, 0x10111213, 0x14151617, 0x18191a1b, 0x1c1d1e1f] →
    (s.keyLen = 16 → ∃ t, execAll [.keyExpand, .encBlock] s = .next t ∧ t.cursor = 11 ∧
      t.block = #v[0x69c4e0d8, 0x6a7b0430, 0xd8cdb780, 0x70b4c55a]) ∧
    (s.keyLen = 24 → ∃ t, execAll [.keyExpand, .encBlock] s = .next t ∧ t.cursor = 13 ∧
      t.block = #v[0xdda97ca4, 0x864cdfe0, 0x6eaf70a0, 0xec0d7191]) ∧
    (s.keyLen = 32 → ∃ t, execAll [.keyExpand, .encBlock] s = .next t ∧ t.cursor = 15 ∧
      t.block = #v[0x8ea2b7ca, 0x516745bf, 0xeafc4990, 0x4b496089])

/-! ## The host port -/

/-- R84: the two low bits of the offset are ignored; a misaligned offset names the aligned register. -/
def Obligations.LowOffsetBitsAreIgnored : Prop :=
  ∀ (s : State) (off : BitVec 12) (v : Word),
    exec (.hostRead off) s = exec (.hostRead (off &&& 0xFFC)) s ∧
    exec (.hostWrite off v) s = exec (.hostWrite (off &&& 0xFFC) v) s

/-- R85 with R31 to R49 and R55: while idle, a read of any offset returns the value of the register there, and changes no
state of the core. The list of the values read is the model's (log 3). -/
def Obligations.IdleReadReturnsTheRegister : Prop :=
  ∀ (s : State) (off : BitVec 12), s.phase = .idle → ∃ v : Word,
    let a := (off &&& 0xFFC).toNat
    exec (.hostRead off) s = .next { s with reads := s.reads ++ [v] } ∧
    (a = 0x000 → v = if s.ie then 1 else 0) ∧
    (a = 0x004 → v.getLsbD 0 = false ∧ v.getLsbD 1 = s.done ∧ v.getLsbD 2 = s.err ∧ v.getLsbD 3 = s.keyValid ∧
      v.extractLsb' 4 4 = 0 ∧ (v.extractLsb' 8 4).toNat = codeNumber s.errCode ∧ v.extractLsb' 12 4 = 0 ∧
      v.extractLsb' 16 4 = s.nk ∧ v.extractLsb' 20 4 = s.nr ∧ v.extractLsb' 24 4 = s.cursor ∧ v.extractLsb' 28 4 = 0) ∧
    (a = 0x008 → v = 0) ∧ (a = 0x00C → v.toNat = s.keyLen.toNat) ∧
    (∀ m : Fin 8, a = 0x010 + 4 * m.val → v = s.key[m]) ∧
    (∀ j : Fin 4, a = 0x030 + 4 * j.val → v = s.block[j]) ∧
    (∀ j : Fin 4, a = 0x040 + 4 * j.val → v = s.rk[j]) ∧
    (a = 0x050 → v.toNat = s.gfA.toNat) ∧ (a = 0x054 → v.toNat = s.gfB.toNat) ∧ (a = 0x058 → v.toNat = s.gfR.toNat) ∧
    (∀ j : Fin 60, a = 0x100 + 4 * j.val →
      v = if s.keyValid = true ∧ j.val < 4 * (s.nr.toNat + 1) then s.w[j] else 0) ∧
    ((0x05C ≤ a ∧ a < 0x100) ∨ 0x1F0 ≤ a → v = 0)

/-- R56: while BUSY a read of any offset completes; BUSY, DONE, ERR, ERRCODE and the reserved bits of STATUS, and every
register that no command writes, read exactly. Nothing is said of the other values: they are free (log 2). -/
def Obligations.BusyReadIsExactOutsideTheFreeRegisters : Prop :=
  ∀ (s : State) (off : BitVec 12), s.phase = .busy → ∃ (v : Word) (n : Nat),
    let a := (off &&& 0xFFC).toNat
    exec (.hostRead off) s = .next { s with reads := s.reads ++ [v], draws := n } ∧
    (a = 0x000 → v = if s.ie then 1 else 0) ∧
    (a = 0x004 → v.getLsbD 0 = true ∧ v.getLsbD 1 = s.done ∧ v.getLsbD 2 = s.err ∧ v.extractLsb' 4 4 = 0 ∧
      (v.extractLsb' 8 4).toNat = codeNumber s.errCode ∧ v.extractLsb' 12 4 = 0 ∧ v.extractLsb' 28 4 = 0) ∧
    (a = 0x008 → v = 0) ∧ (a = 0x00C → v.toNat = s.keyLen.toNat) ∧
    (∀ m : Fin 8, a = 0x010 + 4 * m.val → v = s.key[m]) ∧
    (a = 0x050 → v.toNat = s.gfA.toNat) ∧ (a = 0x054 → v.toNat = s.gfB.toNat) ∧
    ((0x05C ≤ a ∧ a < 0x100) ∨ 0x1F0 ≤ a → v = 0)

/-- R86 with R32, R41 to R48 and R55: while idle, a write of any offset does what its register's rule says and nothing else;
a write to KEYLEN or KEY[m] invalidates the schedule (R45); a write to CMD is the acceptance of a command (R116). -/
def Obligations.IdleWriteFollowsTheRegister : Prop :=
  ∀ (s : State) (off : BitVec 12) (v : Word), s.phase = .idle → ∃ t,
    let a := (off &&& 0xFFC).toNat
    exec (.hostWrite off v) s = .next t ∧
    (a = 0x000 → t = { s with ie := v.getLsbD 0 }) ∧
    (a = 0x004 → t = { s with
      done := s.done && !v.getLsbD 1, err := s.err && !v.getLsbD 2,
      errCode := if v.getLsbD 2 then .noError else s.errCode }) ∧
    (a = 0x008 → t = { s with latch := v, phase := .busy, done := false }) ∧
    (a = 0x00C → t = { s with
      keyLen := v.extractLsb' 0 8, keyValid := false, nk := 0, nr := 0, cursor := 0, w := t.w } ∧ ∀ j : Fin 60, t.w[j] = 0) ∧
    (∀ m : Fin 8, a = 0x010 + 4 * m.val → t = { s with
      key := s.key.set m v, keyValid := false, nk := 0, nr := 0, cursor := 0, w := t.w } ∧ ∀ j : Fin 60, t.w[j] = 0) ∧
    (∀ j : Fin 4, a = 0x030 + 4 * j.val → t = { s with block := s.block.set j v }) ∧
    (∀ j : Fin 4, a = 0x040 + 4 * j.val → t = { s with rk := s.rk.set j v }) ∧
    (a = 0x050 → t = { s with gfA := v.extractLsb' 0 8 }) ∧ (a = 0x054 → t = { s with gfB := v.extractLsb' 0 8 }) ∧
    (0x058 ≤ a → t = s)

/-- R297: a write while BUSY, whatever its offset and data, is discarded and recorded as E_BUSY; the running command (or
illegal word) then ends as it would have, with its own error if it raises one, and with ERR = 1 and ERRCODE = 6 otherwise;
DONE is not set by the write, the latched word stays, and a read while BUSY records nothing. -/
def Obligations.BusyWriteIsDiscardedAndRecorded : Prop :=
  (∀ (s : State) (off : BitVec 12) (v : Word), s.phase = .busy →
    exec (.hostWrite off v) s = .next { s with err := true, errCode := .busy }) ∧
  (∀ (s t u : State) (i : Instr), i.isCommand = true → exec i s = .next t →
    exec i { s with err := true, errCode := .busy } = .next u →
    (t.err = s.err ∧ t.errCode = s.errCode ∧ u = { t with err := true, errCode := .busy }) ∨ (t.err = true ∧ u = t)) ∧
  (∀ s t : State, completeIllegal s = .next t → completeIllegal { s with err := true, errCode := .busy } = .next t) ∧
  (∀ (s t : State) (off : BitVec 12), s.phase = .busy → exec (.hostRead off) s = .next t →
    t.err = s.err ∧ t.errCode = s.errCode)

/-! ## Whole-machine rules -/

/-- R302 and R303: the interrupt line is IE and DONE at every instant; it is low at reset, is IE after the completion of a
command and of an illegal word, drops at acceptance and at the write that clears DONE, rises when IE is set while DONE is 1, and neither a write while BUSY nor a
read moves it. -/
def Obligations.InterruptLineFollowsDone : Prop :=
  State.reset.irq = false ∧ (∀ s : State, s.irq = true ↔ s.ie = true ∧ s.done = true) ∧
  (∀ (i : Instr) (s t : State), i.isCommand = true → exec i s = .next t → t.irq = s.ie) ∧
  (∀ s t : State, completeIllegal s = .next t → t.irq = s.ie) ∧
  (∀ (off : BitVec 12) (v : Word) (s t : State), exec (.hostWrite off v) s = .next t →
    (s.phase = .idle → off &&& 0xFFC = 0x008 → t.irq = false) ∧
    (s.phase = .idle → off &&& 0xFFC = 0x004 → v.getLsbD 1 = true → t.irq = false) ∧
    (s.phase = .idle → off &&& 0xFFC = 0x000 → t.irq = (v.getLsbD 0 && s.done)) ∧ (s.phase = .busy → t.irq = s.irq)) ∧
  ∀ (off : BitVec 12) (s t : State), exec (.hostRead off) s = .next t → t.irq = s.irq

/-- R34, R35 and R56: every command ends with BUSY = 0 and DONE = 1, and no command writes CTRL, LATCH, KEYLEN, KEY, GF_A or
GF_B, or moves the host. -/
def Obligations.EveryCommandEndsIdleWithDone : Prop :=
  ∀ (i : Instr) (s t : State), i.isCommand = true → exec i s = .next t →
    t.phase = .idle ∧ t.done = true ∧
    t = { s with phase := t.phase, done := t.done, err := t.err, errCode := t.errCode, keyValid := t.keyValid, nk := t.nk,
                 nr := t.nr, cursor := t.cursor, block := t.block, rk := t.rk, gfR := t.gfR, w := t.w }

/-- R298, R299 and R300: a command whose check fails, whichever the code recorded before, records the first error that
applies and changes nothing but ERR, ERRCODE, BUSY and DONE; a command whose checks pass completes, with ERR and ERRCODE as
they were (its effects are in its own statement); an illegal word is a command whose decoding fails. -/
def Obligations.FailedCommandsChangeNoData : Prop :=
  (∀ (i : Instr) (s : State) (code : ErrCode), i.isCommand = true → commandError s i = some code →
    code ≠ .noError ∧ exec i s = .next { s with err := true, errCode := code, phase := .idle, done := true }) ∧
  (∀ (i : Instr) (s : State), i.isCommand = true → commandError s i = none →
    ∃ t, exec i s = .next t ∧ t.err = s.err ∧ t.errCode = s.errCode ∧ t.phase = .idle ∧ t.done = true) ∧
  ∀ s : State, completeIllegal s = .next { s with err := true, errCode := .opcode, phase := .idle, done := true }

/-- R291 and R299: which instruction can leave which new error code, and when; E_OPCODE comes from no instruction, only from
an illegal word. -/
def Obligations.ErrorCodesHaveTheirSources : Prop :=
  ∀ (i : Instr) (s t : State), exec i s = .next t → t.errCode ≠ s.errCode →
    match t.errCode with
    | .noError => ∃ off v, i = .hostWrite off v ∧ off &&& 0xFFC = 0x004 ∧ v.getLsbD 2 = true ∧ s.phase = .idle
    | .opcode => False
    | .keyLen => i = .keyExpand ∧ validKeyLen s.keyLen.toNat = false
    | .noKey => s.keyValid = false ∧ (i ∈ [Instr.rkResetFwd, .rkResetBwd, .rkNextEnc, .rkNextDec, .encBlock, .decBlock] ∨
        ∃ n, i = .rkLoad n)
    | .cursor => s.keyValid = true ∧ ((i = .rkNextEnc ∧ s.cursor.toNat = s.nr.toNat + 1) ∨ (i = .rkNextDec ∧ s.cursor = 0))
    | .rkIndex => s.keyValid = true ∧ ∃ n, i = .rkLoad n ∧ s.nr.toNat < n
    | .busy => s.phase = .busy ∧ ∃ off v, i = .hostWrite off v

/-- R32, R35 to R40, R43, R44, R46 to R48, R50 and R52: each register of the core changes only by the instructions its rule
names. -/
def Obligations.RegistersHaveTheirWriters : Prop :=
  ∀ (i : Instr) (s t : State), exec i s = .next t →
    let keyWrite := s.phase = .idle ∧ ∃ off v, i = .hostWrite off v ∧ 0x00C ≤ (off &&& 0xFFC).toNat ∧ (off &&& 0xFFC).toNat < 0x030
    let writeAt := fun a : Nat => s.phase = .idle ∧ ∃ off v, i = .hostWrite off v ∧ (off &&& 0xFFC).toNat = a
    (t.ie ≠ s.ie → writeAt 0x000) ∧ (t.keyLen ≠ s.keyLen → writeAt 0x00C) ∧
    (∀ m : Fin 8, t.key[m] ≠ s.key[m] → writeAt (0x010 + 4 * m.val)) ∧
    (t.gfA ≠ s.gfA → writeAt 0x050) ∧ (t.gfB ≠ s.gfB → writeAt 0x054) ∧
    (t.done ≠ s.done → (i.isCommand = true ∧ t.done = true) ∨ (writeAt 0x008 ∧ t.done = false) ∨
      (t.done = false ∧ s.phase = .idle ∧ ∃ off v, i = .hostWrite off v ∧ off &&& 0xFFC = 0x004 ∧ v.getLsbD 1 = true)) ∧
    (t.err ≠ s.err ∨ t.errCode ≠ s.errCode → (∃ code, commandError s i = some code ∧ t.err = true ∧ t.errCode = code) ∨
      (s.phase = .busy ∧ (∃ off v, i = .hostWrite off v) ∧ t.err = true ∧ t.errCode = .busy) ∨
      (t.err = false ∧ t.errCode = .noError ∧ s.phase = .idle ∧
        ∃ off v, i = .hostWrite off v ∧ off &&& 0xFFC = 0x004 ∧ v.getLsbD 2 = true)) ∧
    (s.phase = .busy ∧ t.phase = .idle → i.isCommand = true) ∧
    (t.gfR ≠ s.gfR → i ∈ [Instr.gfBittest, .gfXtime, .gfMul, .gfInv, .gfSbox, .gfInvsbox]) ∧
    (t.w ≠ s.w ∨ t.keyValid ≠ s.keyValid ∨ t.nk ≠ s.nk ∨ t.nr ≠ s.nr → i = .keyExpand ∨ keyWrite) ∧
    (t.keyValid = true → s.keyValid = true ∨ i = .keyExpand) ∧
    (t.cursor ≠ s.cursor →
      i ∈ [Instr.keyExpand, .rkResetFwd, .rkResetBwd, .rkNextEnc, .rkNextDec, .encBlock, .decBlock] ∨ keyWrite) ∧
    (t.rk ≠ s.rk → i ∈ [Instr.rkNextEnc, .rkNextDec] ∨ (∃ n, i = .rkLoad n) ∨
      (s.phase = .idle ∧ ∃ off v, i = .hostWrite off v ∧ 0x040 ≤ (off &&& 0xFFC).toNat ∧ (off &&& 0xFFC).toNat < 0x050)) ∧
    (t.block ≠ s.block →
      i ∈ [Instr.subBytes, .invSubBytes, .shiftRows, .invShiftRows, .mixColumns, .invMixColumns, .addRoundKey, .encBlock,
           .decBlock] ∨
      (s.phase = .idle ∧ ∃ off v, i = .hostWrite off v ∧ 0x030 ≤ (off &&& 0xFFC).toNat ∧ (off &&& 0xFFC).toNat < 0x040)) ∧
    (t.latch ≠ s.latch ∨ (s.phase = .idle ∧ t.phase = .busy) →
      s.phase = .idle ∧ ∃ off v, i = .hostWrite off v ∧ off &&& 0xFFC = 0x008)

/-! ## Message-level ECB -/

/-- R270 and R272: `ecbEncrypt` refuses an illegal key length with no output; otherwise its output has `16 * ceil(L / 16)`
bytes, and the 16 bytes at `16j` are the encipherment of chunk `j` alone. -/
def Obligations.EcbEncryptsChunkByChunk : Prop :=
  ∀ m key : List Byte,
    (validKeyLen key.length = false → ecbEncrypt m key = .keyLengthError) ∧
    (validKeyLen key.length = true → ∃ out, ecbEncrypt m key = .output out ∧ out.length = 16 * ((m.length + 15) / 16) ∧
      ∀ j : Nat, j < (m.length + 15) / 16 →
        (out.drop (16 * j)).take 16 =
          bytesOfBlock (encryptBlock (scheduleOf key) (roundsOf key) (blockOfBytes
            ((List.range 16).map fun i => m.getD (16 * j + i) 0x00))).1)

/-- R273: decrypting the encryption of a message gives the message and zero bytes up to the next multiple of 16; R271: a
ciphertext whose length is not a multiple of 16 gives no output, and neither does an illegal key length. That an illegal
key length comes first where both hold is the model's reading (log 14). -/
def Obligations.EcbRoundTrip : Prop :=
  ∀ m key : List Byte,
    (validKeyLen key.length = true → ∃ c, ecbEncrypt m key = .output c ∧
      ecbDecrypt c key = .output (m ++ List.replicate (16 * ((m.length + 15) / 16) - m.length) 0x00)) ∧
    (validKeyLen key.length = true → m.length % 16 ≠ 0 → ecbDecrypt m key = .misaligned) ∧
    (validKeyLen key.length = false → ecbDecrypt m key = .keyLengthError)

/-- R270, R323 and R121: the key steps of the host procedure, run step by step on the machine from any idle state and with
any number of polls, end idle; the wait's polls see BUSY = 1 but for the last; the STATUS word read last has bit 3 set
exactly when the key length is legal, and then `W` holds the expanded key of the key bytes. The host's procedure as a list of
events is the model's form of it (log 1, log 14). -/
def Obligations.KeyProcedureExpandsTheKey : Prop :=
  ∀ (s : State) (key : List Byte) (polls : Nat) (rest : List Event), s.phase = .idle →
    s.events = keyScript key polls ++ rest →
    ∃ t st polled, runSteps (keyScript key polls).length s = .next t ∧ t.phase = .idle ∧ t.events = rest ∧
      t.reads = s.reads ++ polled ++ [st] ∧ polled.map (pollDone 0x1 0) = List.replicate polls false ++ [true] ∧
      keyRefused st = !validKeyLen key.length ∧ t.keyValid = validKeyLen key.length ∧
      (validKeyLen key.length = true → t.w = scheduleOf key ∧ t.nr.toNat = roundsOf key)

/-- R270, R271 and R324: one pass of the host procedure's loop, run step by step from any idle state with a valid schedule
and with any number of polls (which see BUSY = 1 but for the last), ends idle with the schedule kept, and its last four
reads are the block that `encryptBlock` (word 0x30) or `decryptBlock` (word 0x31) gives for the 16 bytes. The host's procedure as a
list of events is the model's form of it (log 1, log 14). -/
def Obligations.ChunkProcedureReturnsTheBlock : Prop :=
  ∀ (s : State) (bytes : List Byte) (polls : Nat) (rest : List Event) (command : Word) (out : Block),
    s.phase = .idle → s.keyValid = true → s.nr.toNat ≤ 14 → s.events = chunkScript command bytes polls ++ rest →
    ((command = 0x00000030 ∧ out = (encryptBlock s.w s.nr.toNat (blockOfBytes bytes)).1) ∨
      (command = 0x00000031 ∧ out = (decryptBlock s.w s.nr.toNat (blockOfBytes bytes)).1)) →
    ∃ t polled, runSteps (chunkScript command bytes polls).length s = .next t ∧ t.phase = .idle ∧ t.events = rest ∧
      t.reads = s.reads ++ polled ++ [out[0], out[1], out[2], out[3]] ∧
      polled.map (pollDone 0x1 0) = List.replicate polls false ++ [true] ∧
      t = { s with block := out, cursor := t.cursor, done := true, latch := command, events := rest, reads := t.reads,
                   draws := t.draws }

/-- R270 and R271, the whole procedures on the machine: from any idle state, with a legal key and any number of polls in each
wait (R331), the run ends (R330) with no error recorded that was not recorded before, and the four words read after each
chunk's wait, as bytes and in order, are the output of `ecbEncrypt`; and so for `ecbDecrypt` of a ciphertext of whole chunks.
The host's procedure as a list of events is the model's form of it (log 1, log 14). -/
def Obligations.EcbProcedureReturnsTheOutput : Prop :=
  ∀ (s : State) (m key : List Byte) (keyPolls : Nat) (polls : Nat → Nat) (command : Word) (out : List Byte),
    s.phase = .idle → s.events = keyScript key keyPolls ++ messageScript command m polls →
    ((command = 0x00000030 ∧ ecbEncrypt m key = .output out) ∨ (command = 0x00000031 ∧ ecbDecrypt m key = .output out)) →
    ∃ t, runSteps s.events.length s = .next t ∧ t.ended ∧ t.err = s.err ∧ t.errCode = s.errCode ∧
      (List.range (chunkCount m.length)).flatMap (fun j =>
        (chunkReads polls (t.reads.drop (s.reads.length + keyReads keyPolls)) j).flatMap bytesOfWord) = out
end

