-- ==== Sys2Proof/Laws/Bytes.lean ====
section
/-! SUPPORT. Laws of bytes in words and of the 4x4 state: packing and unpacking undo each other (rules R10 and R239), so a
transform on cells can be followed through the columns. -/

namespace Sys2Proof.Machine

/-- Bit `i` of byte `t` of a word (rule R10). -/
theorem getLsbD_byteOf (v : Word) (t : Fin 4) (i : Nat) :
    (byteOf v t).getLsbD i = (decide (i < 8) && v.getLsbD (24 - 8 * t.val + i)) := by
  simp [byteOf, BitVec.getLsbD_extractLsb']

/-- Bit `i` of a word packed from four bytes (rule R10). -/
theorem getLsbD_word32 (a b c d : Byte) (i : Nat) :
    (word32 a b c d).getLsbD i =
      if i < 8 then d.getLsbD i else if i < 16 then c.getLsbD (i - 8)
      else if i < 24 then b.getLsbD (i - 16) else a.getLsbD (i - 24) := by
  simp only [word32, BitVec.getLsbD_append]
  rcases Nat.lt_or_ge i 8 with h | h
  · simp [h]
  rcases Nat.lt_or_ge i 16 with h' | h'
  · simp [show ¬ i < 8 by omega, h', show i - 8 < 8 by omega]
  rcases Nat.lt_or_ge i 24 with h'' | h''
  · simp [show ¬ i < 8 by omega, show ¬ i < 16 by omega, h'', show ¬ i - 8 < 8 by omega, show i - 16 < 8 by omega,
      show i - 8 - 8 = i - 16 by omega]
  · simp [show ¬ i < 8 by omega, show ¬ i < 16 by omega, show ¬ i < 24 by omega, show ¬ i - 8 < 8 by omega,
      show ¬ i - 8 - 8 < 8 by omega, show i - 8 - 8 - 8 = i - 24 by omega]

@[simp] theorem byteOf_word32_0 (a b c d : Byte) : byteOf (word32 a b c d) 0 = a := by
  refine BitVec.eq_of_getLsbD_eq fun i hi => ?_
  rw [getLsbD_byteOf, getLsbD_word32, show 24 - 8 * (0 : Fin 4).val + i = 24 + i from rfl]
  simp only [hi, decide_true, Bool.true_and]
  split_ifs <;> first | omega | (congr 1; omega)

@[simp] theorem byteOf_word32_1 (a b c d : Byte) : byteOf (word32 a b c d) 1 = b := by
  refine BitVec.eq_of_getLsbD_eq fun i hi => ?_
  rw [getLsbD_byteOf, getLsbD_word32, show 24 - 8 * (1 : Fin 4).val + i = 16 + i from rfl]
  simp only [hi, decide_true, Bool.true_and]
  split_ifs <;> first | omega | (congr 1; omega)

@[simp] theorem byteOf_word32_2 (a b c d : Byte) : byteOf (word32 a b c d) 2 = c := by
  refine BitVec.eq_of_getLsbD_eq fun i hi => ?_
  rw [getLsbD_byteOf, getLsbD_word32, show 24 - 8 * (2 : Fin 4).val + i = 8 + i from rfl]
  simp only [hi, decide_true, Bool.true_and]
  split_ifs <;> first | omega | (congr 1; omega)

@[simp] theorem byteOf_word32_3 (a b c d : Byte) : byteOf (word32 a b c d) 3 = d := by
  refine BitVec.eq_of_getLsbD_eq fun i hi => ?_
  rw [getLsbD_byteOf, getLsbD_word32, show 24 - 8 * (3 : Fin 4).val + i = 0 + i from rfl]
  simp only [hi, decide_true, Bool.true_and]
  split_ifs <;> first | omega | (congr 1; omega)

/-- Packing the four bytes of a word gives it back (rule R10). -/
@[simp] theorem word32_byteOf (v : Word) : word32 (byteOf v 0) (byteOf v 1) (byteOf v 2) (byteOf v 3) = v := by
  refine BitVec.eq_of_getLsbD_eq fun i hi => ?_
  simp only [getLsbD_word32, getLsbD_byteOf]
  split_ifs with h1 h2 h3
  · rw [show 24 - 8 * (3 : Fin 4).val + i = i from by simp]; simp [h1]
  · rw [show 24 - 8 * (2 : Fin 4).val + (i - 8) = i from by simp; omega]; simp [show i - 8 < 8 by omega]
  · rw [show 24 - 8 * (1 : Fin 4).val + (i - 16) = i from by simp; omega]; simp [show i - 16 < 8 by omega]
  · rw [show 24 - 8 * (0 : Fin 4).val + (i - 24) = i from by simp; omega]; simp [show i - 24 < 8 by omega]

/-- Two words with the same four bytes are the same word. -/
theorem word_ext {v u : Word} (h : ∀ r : Fin 4, byteOf v r = byteOf u r) : v = u := by
  rw [← word32_byteOf v, ← word32_byteOf u, h 0, h 1, h 2, h 3]

/-- XOR of words is XOR byte by byte (rule R237). -/
@[simp] theorem byteOf_xor (v u : Word) (t : Fin 4) : byteOf (v ^^^ u) t = byteOf v t ^^^ byteOf u t := by
  refine BitVec.eq_of_getLsbD_eq fun i hi => ?_
  simp only [getLsbD_byteOf, BitVec.getLsbD_xor, hi, decide_true, Bool.true_and]

/-- Reading the cells of columns written from cells gives the cells (rule R239). -/
@[simp] theorem cells_ofCells (f : Cells) : cells (ofCells f) = f := by
  funext r c
  match r, c with
  | 0, 0 | 0, 1 | 0, 2 | 0, 3 | 1, 0 | 1, 1 | 1, 2 | 1, 3 | 2, 0 | 2, 1 | 2, 2 | 2, 3 | 3, 0 | 3, 1 | 3, 2 | 3, 3 =>
    simp [cells, ofCells]

/-- Two blocks with the same four columns are the same block. -/
theorem block_ext {b d : Block} (h : ∀ c : Fin 4, b[c] = d[c]) : b = d := by
  refine Vector.ext fun i hi => ?_
  exact h ⟨i, hi⟩

/-- Two blocks with the same sixteen cells are the same block. -/
theorem block_ext_cells {b d : Block} (h : ∀ r c : Fin 4, byteOf b[c] r = byteOf d[c] r) : b = d :=
  block_ext fun c => word_ext fun r => h r c

/-- Writing back the cells of a block gives the block (rule R239). -/
@[simp] theorem ofCells_cells (b : Block) : ofCells (cells b) = b :=
  block_ext_cells fun r c => congrFun (congrFun (cells_ofCells (cells b)) r) c

/-- One cell of a transform on columns. -/
theorem byteOf_onCells (f : Cells → Cells) (b : Block) (r c : Fin 4) : byteOf (onCells f b)[c] r = f (cells b) r c :=
  congrFun (congrFun (cells_ofCells (f (cells b))) r) c

/-- Two transforms on columns, one after the other. -/
@[simp] theorem onCells_onCells (f g : Cells → Cells) (b : Block) : onCells f (onCells g b) = onCells (f ∘ g) b := by
  simp [onCells]

/-- Column `c` of AddRoundKey (rule R237). -/
theorem getElem_addRoundKey (b k : Block) (c : Fin 4) : (addRoundKey b k)[c] = b[c] ^^^ k[c] := by
  match c with
  | 0 | 1 | 2 | 3 => simp [addRoundKey]

/-- "This operation is its own inverse" (rule R237). -/
@[simp] theorem addRoundKey_addRoundKey (b k : Block) : addRoundKey (addRoundKey b k) k = b :=
  block_ext fun c => by
    rw [getElem_addRoundKey, getElem_addRoundKey, BitVec.xor_assoc, BitVec.xor_self, BitVec.xor_zero]

end Sys2Proof.Machine
end

