-- ==== Sys2Proof/Laws/State.lean ====
section
/-! SUPPORT. Laws of State: one lemma per field and named update, so that no later proof unfolds a record update. -/

namespace Sys2Proof.Machine

variable (s : State)

@[simp] theorem State.complete_ie : s.complete.ie = s.ie := rfl
@[simp] theorem State.complete_phase : s.complete.phase = .idle := rfl
@[simp] theorem State.complete_done : s.complete.done = true := rfl
@[simp] theorem State.complete_err : s.complete.err = s.err := rfl
@[simp] theorem State.complete_errCode : s.complete.errCode = s.errCode := rfl
@[simp] theorem State.complete_keyValid : s.complete.keyValid = s.keyValid := rfl
@[simp] theorem State.complete_nk : s.complete.nk = s.nk := rfl
@[simp] theorem State.complete_nr : s.complete.nr = s.nr := rfl
@[simp] theorem State.complete_cursor : s.complete.cursor = s.cursor := rfl
@[simp] theorem State.complete_latch : s.complete.latch = s.latch := rfl
@[simp] theorem State.complete_keyLen : s.complete.keyLen = s.keyLen := rfl
@[simp] theorem State.complete_key : s.complete.key = s.key := rfl
@[simp] theorem State.complete_block : s.complete.block = s.block := rfl
@[simp] theorem State.complete_rk : s.complete.rk = s.rk := rfl
@[simp] theorem State.complete_gfA : s.complete.gfA = s.gfA := rfl
@[simp] theorem State.complete_gfB : s.complete.gfB = s.gfB := rfl
@[simp] theorem State.complete_gfR : s.complete.gfR = s.gfR := rfl
@[simp] theorem State.complete_w : s.complete.w = s.w := rfl
@[simp] theorem State.complete_events : s.complete.events = s.events := rfl
@[simp] theorem State.complete_reads : s.complete.reads = s.reads := rfl
@[simp] theorem State.complete_draws : s.complete.draws = s.draws := rfl

@[simp] theorem State.raiseError_ie (code : ErrCode) : (s.raiseError code).ie = s.ie := rfl
@[simp] theorem State.raiseError_phase (code : ErrCode) : (s.raiseError code).phase = .idle := rfl
@[simp] theorem State.raiseError_done (code : ErrCode) : (s.raiseError code).done = true := rfl
@[simp] theorem State.raiseError_err (code : ErrCode) : (s.raiseError code).err = true := rfl
@[simp] theorem State.raiseError_errCode (code : ErrCode) : (s.raiseError code).errCode = code := rfl
@[simp] theorem State.raiseError_keyValid (code : ErrCode) : (s.raiseError code).keyValid = s.keyValid := rfl
@[simp] theorem State.raiseError_nk (code : ErrCode) : (s.raiseError code).nk = s.nk := rfl
@[simp] theorem State.raiseError_nr (code : ErrCode) : (s.raiseError code).nr = s.nr := rfl
@[simp] theorem State.raiseError_cursor (code : ErrCode) : (s.raiseError code).cursor = s.cursor := rfl
@[simp] theorem State.raiseError_latch (code : ErrCode) : (s.raiseError code).latch = s.latch := rfl
@[simp] theorem State.raiseError_keyLen (code : ErrCode) : (s.raiseError code).keyLen = s.keyLen := rfl
@[simp] theorem State.raiseError_key (code : ErrCode) : (s.raiseError code).key = s.key := rfl
@[simp] theorem State.raiseError_block (code : ErrCode) : (s.raiseError code).block = s.block := rfl
@[simp] theorem State.raiseError_rk (code : ErrCode) : (s.raiseError code).rk = s.rk := rfl
@[simp] theorem State.raiseError_gfA (code : ErrCode) : (s.raiseError code).gfA = s.gfA := rfl
@[simp] theorem State.raiseError_gfB (code : ErrCode) : (s.raiseError code).gfB = s.gfB := rfl
@[simp] theorem State.raiseError_gfR (code : ErrCode) : (s.raiseError code).gfR = s.gfR := rfl
@[simp] theorem State.raiseError_w (code : ErrCode) : (s.raiseError code).w = s.w := rfl
@[simp] theorem State.raiseError_events (code : ErrCode) : (s.raiseError code).events = s.events := rfl
@[simp] theorem State.raiseError_reads (code : ErrCode) : (s.raiseError code).reads = s.reads := rfl
@[simp] theorem State.raiseError_draws (code : ErrCode) : (s.raiseError code).draws = s.draws := rfl

@[simp] theorem State.accept_ie (v : Word) : (s.accept v).ie = s.ie := rfl
@[simp] theorem State.accept_phase (v : Word) : (s.accept v).phase = .busy := rfl
@[simp] theorem State.accept_done (v : Word) : (s.accept v).done = false := rfl
@[simp] theorem State.accept_err (v : Word) : (s.accept v).err = s.err := rfl
@[simp] theorem State.accept_errCode (v : Word) : (s.accept v).errCode = s.errCode := rfl
@[simp] theorem State.accept_keyValid (v : Word) : (s.accept v).keyValid = s.keyValid := rfl
@[simp] theorem State.accept_nk (v : Word) : (s.accept v).nk = s.nk := rfl
@[simp] theorem State.accept_nr (v : Word) : (s.accept v).nr = s.nr := rfl
@[simp] theorem State.accept_cursor (v : Word) : (s.accept v).cursor = s.cursor := rfl
@[simp] theorem State.accept_latch (v : Word) : (s.accept v).latch = v := rfl
@[simp] theorem State.accept_keyLen (v : Word) : (s.accept v).keyLen = s.keyLen := rfl
@[simp] theorem State.accept_key (v : Word) : (s.accept v).key = s.key := rfl
@[simp] theorem State.accept_block (v : Word) : (s.accept v).block = s.block := rfl
@[simp] theorem State.accept_rk (v : Word) : (s.accept v).rk = s.rk := rfl
@[simp] theorem State.accept_gfA (v : Word) : (s.accept v).gfA = s.gfA := rfl
@[simp] theorem State.accept_gfB (v : Word) : (s.accept v).gfB = s.gfB := rfl
@[simp] theorem State.accept_gfR (v : Word) : (s.accept v).gfR = s.gfR := rfl
@[simp] theorem State.accept_w (v : Word) : (s.accept v).w = s.w := rfl
@[simp] theorem State.accept_events (v : Word) : (s.accept v).events = s.events := rfl
@[simp] theorem State.accept_reads (v : Word) : (s.accept v).reads = s.reads := rfl
@[simp] theorem State.accept_draws (v : Word) : (s.accept v).draws = s.draws := rfl

@[simp] theorem State.invalidate_ie : s.invalidate.ie = s.ie := rfl
@[simp] theorem State.invalidate_phase : s.invalidate.phase = s.phase := rfl
@[simp] theorem State.invalidate_done : s.invalidate.done = s.done := rfl
@[simp] theorem State.invalidate_err : s.invalidate.err = s.err := rfl
@[simp] theorem State.invalidate_errCode : s.invalidate.errCode = s.errCode := rfl
@[simp] theorem State.invalidate_keyValid : s.invalidate.keyValid = false := rfl
@[simp] theorem State.invalidate_nk : s.invalidate.nk = 0 := rfl
@[simp] theorem State.invalidate_nr : s.invalidate.nr = 0 := rfl
@[simp] theorem State.invalidate_cursor : s.invalidate.cursor = 0 := rfl
@[simp] theorem State.invalidate_latch : s.invalidate.latch = s.latch := rfl
@[simp] theorem State.invalidate_keyLen : s.invalidate.keyLen = s.keyLen := rfl
@[simp] theorem State.invalidate_key : s.invalidate.key = s.key := rfl
@[simp] theorem State.invalidate_block : s.invalidate.block = s.block := rfl
@[simp] theorem State.invalidate_rk : s.invalidate.rk = s.rk := rfl
@[simp] theorem State.invalidate_gfA : s.invalidate.gfA = s.gfA := rfl
@[simp] theorem State.invalidate_gfB : s.invalidate.gfB = s.gfB := rfl
@[simp] theorem State.invalidate_gfR : s.invalidate.gfR = s.gfR := rfl
@[simp] theorem State.invalidate_w : s.invalidate.w = clearedSchedule := rfl
@[simp] theorem State.invalidate_events : s.invalidate.events = s.events := rfl
@[simp] theorem State.invalidate_reads : s.invalidate.reads = s.reads := rfl
@[simp] theorem State.invalidate_draws : s.invalidate.draws = s.draws := rfl

@[simp] theorem State.recordBusyWrite_ie : s.recordBusyWrite.ie = s.ie := rfl
@[simp] theorem State.recordBusyWrite_phase : s.recordBusyWrite.phase = s.phase := rfl
@[simp] theorem State.recordBusyWrite_done : s.recordBusyWrite.done = s.done := rfl
@[simp] theorem State.recordBusyWrite_err : s.recordBusyWrite.err = true := rfl
@[simp] theorem State.recordBusyWrite_errCode : s.recordBusyWrite.errCode = .busy := rfl
@[simp] theorem State.recordBusyWrite_keyValid : s.recordBusyWrite.keyValid = s.keyValid := rfl
@[simp] theorem State.recordBusyWrite_nk : s.recordBusyWrite.nk = s.nk := rfl
@[simp] theorem State.recordBusyWrite_nr : s.recordBusyWrite.nr = s.nr := rfl
@[simp] theorem State.recordBusyWrite_cursor : s.recordBusyWrite.cursor = s.cursor := rfl
@[simp] theorem State.recordBusyWrite_latch : s.recordBusyWrite.latch = s.latch := rfl
@[simp] theorem State.recordBusyWrite_keyLen : s.recordBusyWrite.keyLen = s.keyLen := rfl
@[simp] theorem State.recordBusyWrite_key : s.recordBusyWrite.key = s.key := rfl
@[simp] theorem State.recordBusyWrite_block : s.recordBusyWrite.block = s.block := rfl
@[simp] theorem State.recordBusyWrite_rk : s.recordBusyWrite.rk = s.rk := rfl
@[simp] theorem State.recordBusyWrite_gfA : s.recordBusyWrite.gfA = s.gfA := rfl
@[simp] theorem State.recordBusyWrite_gfB : s.recordBusyWrite.gfB = s.gfB := rfl
@[simp] theorem State.recordBusyWrite_gfR : s.recordBusyWrite.gfR = s.gfR := rfl
@[simp] theorem State.recordBusyWrite_w : s.recordBusyWrite.w = s.w := rfl
@[simp] theorem State.recordBusyWrite_events : s.recordBusyWrite.events = s.events := rfl
@[simp] theorem State.recordBusyWrite_reads : s.recordBusyWrite.reads = s.reads := rfl
@[simp] theorem State.recordBusyWrite_draws : s.recordBusyWrite.draws = s.draws := rfl

@[simp] theorem State.returnRead_ie (v : Word) : (s.returnRead v).ie = s.ie := rfl
@[simp] theorem State.returnRead_phase (v : Word) : (s.returnRead v).phase = s.phase := rfl
@[simp] theorem State.returnRead_done (v : Word) : (s.returnRead v).done = s.done := rfl
@[simp] theorem State.returnRead_err (v : Word) : (s.returnRead v).err = s.err := rfl
@[simp] theorem State.returnRead_errCode (v : Word) : (s.returnRead v).errCode = s.errCode := rfl
@[simp] theorem State.returnRead_keyValid (v : Word) : (s.returnRead v).keyValid = s.keyValid := rfl
@[simp] theorem State.returnRead_nk (v : Word) : (s.returnRead v).nk = s.nk := rfl
@[simp] theorem State.returnRead_nr (v : Word) : (s.returnRead v).nr = s.nr := rfl
@[simp] theorem State.returnRead_cursor (v : Word) : (s.returnRead v).cursor = s.cursor := rfl
@[simp] theorem State.returnRead_latch (v : Word) : (s.returnRead v).latch = s.latch := rfl
@[simp] theorem State.returnRead_keyLen (v : Word) : (s.returnRead v).keyLen = s.keyLen := rfl
@[simp] theorem State.returnRead_key (v : Word) : (s.returnRead v).key = s.key := rfl
@[simp] theorem State.returnRead_block (v : Word) : (s.returnRead v).block = s.block := rfl
@[simp] theorem State.returnRead_rk (v : Word) : (s.returnRead v).rk = s.rk := rfl
@[simp] theorem State.returnRead_gfA (v : Word) : (s.returnRead v).gfA = s.gfA := rfl
@[simp] theorem State.returnRead_gfB (v : Word) : (s.returnRead v).gfB = s.gfB := rfl
@[simp] theorem State.returnRead_gfR (v : Word) : (s.returnRead v).gfR = s.gfR := rfl
@[simp] theorem State.returnRead_w (v : Word) : (s.returnRead v).w = s.w := rfl
@[simp] theorem State.returnRead_events (v : Word) : (s.returnRead v).events = s.events := rfl
@[simp] theorem State.returnRead_reads (v : Word) : (s.returnRead v).reads = s.reads ++ [v] := rfl
@[simp] theorem State.returnRead_draws (v : Word) : (s.returnRead v).draws = s.draws := rfl

@[simp] theorem State.countDraw_ie : s.countDraw.ie = s.ie := rfl
@[simp] theorem State.countDraw_phase : s.countDraw.phase = s.phase := rfl
@[simp] theorem State.countDraw_done : s.countDraw.done = s.done := rfl
@[simp] theorem State.countDraw_err : s.countDraw.err = s.err := rfl
@[simp] theorem State.countDraw_errCode : s.countDraw.errCode = s.errCode := rfl
@[simp] theorem State.countDraw_keyValid : s.countDraw.keyValid = s.keyValid := rfl
@[simp] theorem State.countDraw_nk : s.countDraw.nk = s.nk := rfl
@[simp] theorem State.countDraw_nr : s.countDraw.nr = s.nr := rfl
@[simp] theorem State.countDraw_cursor : s.countDraw.cursor = s.cursor := rfl
@[simp] theorem State.countDraw_latch : s.countDraw.latch = s.latch := rfl
@[simp] theorem State.countDraw_keyLen : s.countDraw.keyLen = s.keyLen := rfl
@[simp] theorem State.countDraw_key : s.countDraw.key = s.key := rfl
@[simp] theorem State.countDraw_block : s.countDraw.block = s.block := rfl
@[simp] theorem State.countDraw_rk : s.countDraw.rk = s.rk := rfl
@[simp] theorem State.countDraw_gfA : s.countDraw.gfA = s.gfA := rfl
@[simp] theorem State.countDraw_gfB : s.countDraw.gfB = s.gfB := rfl
@[simp] theorem State.countDraw_gfR : s.countDraw.gfR = s.gfR := rfl
@[simp] theorem State.countDraw_w : s.countDraw.w = s.w := rfl
@[simp] theorem State.countDraw_events : s.countDraw.events = s.events := rfl
@[simp] theorem State.countDraw_reads : s.countDraw.reads = s.reads := rfl
@[simp] theorem State.countDraw_draws : s.countDraw.draws = s.draws + 1 := rfl

@[simp] theorem State.popEvent_ie : s.popEvent.ie = s.ie := rfl
@[simp] theorem State.popEvent_phase : s.popEvent.phase = s.phase := rfl
@[simp] theorem State.popEvent_done : s.popEvent.done = s.done := rfl
@[simp] theorem State.popEvent_err : s.popEvent.err = s.err := rfl
@[simp] theorem State.popEvent_errCode : s.popEvent.errCode = s.errCode := rfl
@[simp] theorem State.popEvent_keyValid : s.popEvent.keyValid = s.keyValid := rfl
@[simp] theorem State.popEvent_nk : s.popEvent.nk = s.nk := rfl
@[simp] theorem State.popEvent_nr : s.popEvent.nr = s.nr := rfl
@[simp] theorem State.popEvent_cursor : s.popEvent.cursor = s.cursor := rfl
@[simp] theorem State.popEvent_latch : s.popEvent.latch = s.latch := rfl
@[simp] theorem State.popEvent_keyLen : s.popEvent.keyLen = s.keyLen := rfl
@[simp] theorem State.popEvent_key : s.popEvent.key = s.key := rfl
@[simp] theorem State.popEvent_block : s.popEvent.block = s.block := rfl
@[simp] theorem State.popEvent_rk : s.popEvent.rk = s.rk := rfl
@[simp] theorem State.popEvent_gfA : s.popEvent.gfA = s.gfA := rfl
@[simp] theorem State.popEvent_gfB : s.popEvent.gfB = s.gfB := rfl
@[simp] theorem State.popEvent_gfR : s.popEvent.gfR = s.gfR := rfl
@[simp] theorem State.popEvent_w : s.popEvent.w = s.w := rfl
@[simp] theorem State.popEvent_events : s.popEvent.events = s.events.tail := rfl
@[simp] theorem State.popEvent_reads : s.popEvent.reads = s.reads := rfl
@[simp] theorem State.popEvent_draws : s.popEvent.draws = s.draws := rfl

@[simp] theorem State.takeReset_ie : s.takeReset.ie = State.reset.ie := rfl
@[simp] theorem State.takeReset_phase : s.takeReset.phase = State.reset.phase := rfl
@[simp] theorem State.takeReset_done : s.takeReset.done = State.reset.done := rfl
@[simp] theorem State.takeReset_err : s.takeReset.err = State.reset.err := rfl
@[simp] theorem State.takeReset_errCode : s.takeReset.errCode = State.reset.errCode := rfl
@[simp] theorem State.takeReset_keyValid : s.takeReset.keyValid = State.reset.keyValid := rfl
@[simp] theorem State.takeReset_nk : s.takeReset.nk = State.reset.nk := rfl
@[simp] theorem State.takeReset_nr : s.takeReset.nr = State.reset.nr := rfl
@[simp] theorem State.takeReset_cursor : s.takeReset.cursor = State.reset.cursor := rfl
@[simp] theorem State.takeReset_latch : s.takeReset.latch = State.reset.latch := rfl
@[simp] theorem State.takeReset_keyLen : s.takeReset.keyLen = State.reset.keyLen := rfl
@[simp] theorem State.takeReset_key : s.takeReset.key = State.reset.key := rfl
@[simp] theorem State.takeReset_block : s.takeReset.block = State.reset.block := rfl
@[simp] theorem State.takeReset_rk : s.takeReset.rk = State.reset.rk := rfl
@[simp] theorem State.takeReset_gfA : s.takeReset.gfA = State.reset.gfA := rfl
@[simp] theorem State.takeReset_gfB : s.takeReset.gfB = State.reset.gfB := rfl
@[simp] theorem State.takeReset_gfR : s.takeReset.gfR = State.reset.gfR := rfl
@[simp] theorem State.takeReset_w : s.takeReset.w = State.reset.w := rfl
@[simp] theorem State.takeReset_events : s.takeReset.events = s.events := rfl
@[simp] theorem State.takeReset_reads : s.takeReset.reads = s.reads := rfl
@[simp] theorem State.takeReset_draws : s.takeReset.draws = s.draws := rfl

@[simp] theorem State.finishField_ie (v : Byte) : (s.finishField v).ie = s.ie := rfl
@[simp] theorem State.finishField_phase (v : Byte) : (s.finishField v).phase = .idle := rfl
@[simp] theorem State.finishField_done (v : Byte) : (s.finishField v).done = true := rfl
@[simp] theorem State.finishField_err (v : Byte) : (s.finishField v).err = s.err := rfl
@[simp] theorem State.finishField_errCode (v : Byte) : (s.finishField v).errCode = s.errCode := rfl
@[simp] theorem State.finishField_keyValid (v : Byte) : (s.finishField v).keyValid = s.keyValid := rfl
@[simp] theorem State.finishField_nk (v : Byte) : (s.finishField v).nk = s.nk := rfl
@[simp] theorem State.finishField_nr (v : Byte) : (s.finishField v).nr = s.nr := rfl
@[simp] theorem State.finishField_cursor (v : Byte) : (s.finishField v).cursor = s.cursor := rfl
@[simp] theorem State.finishField_latch (v : Byte) : (s.finishField v).latch = s.latch := rfl
@[simp] theorem State.finishField_keyLen (v : Byte) : (s.finishField v).keyLen = s.keyLen := rfl
@[simp] theorem State.finishField_key (v : Byte) : (s.finishField v).key = s.key := rfl
@[simp] theorem State.finishField_block (v : Byte) : (s.finishField v).block = s.block := rfl
@[simp] theorem State.finishField_rk (v : Byte) : (s.finishField v).rk = s.rk := rfl
@[simp] theorem State.finishField_gfA (v : Byte) : (s.finishField v).gfA = s.gfA := rfl
@[simp] theorem State.finishField_gfB (v : Byte) : (s.finishField v).gfB = s.gfB := rfl
@[simp] theorem State.finishField_gfR (v : Byte) : (s.finishField v).gfR = v := rfl
@[simp] theorem State.finishField_w (v : Byte) : (s.finishField v).w = s.w := rfl
@[simp] theorem State.finishField_events (v : Byte) : (s.finishField v).events = s.events := rfl
@[simp] theorem State.finishField_reads (v : Byte) : (s.finishField v).reads = s.reads := rfl
@[simp] theorem State.finishField_draws (v : Byte) : (s.finishField v).draws = s.draws := rfl

@[simp] theorem State.installSchedule_ie (nk : Nat) : (s.installSchedule nk).ie = s.ie := rfl
@[simp] theorem State.installSchedule_phase (nk : Nat) : (s.installSchedule nk).phase = s.phase := rfl
@[simp] theorem State.installSchedule_done (nk : Nat) : (s.installSchedule nk).done = s.done := rfl
@[simp] theorem State.installSchedule_err (nk : Nat) : (s.installSchedule nk).err = s.err := rfl
@[simp] theorem State.installSchedule_errCode (nk : Nat) : (s.installSchedule nk).errCode = s.errCode := rfl
@[simp] theorem State.installSchedule_keyValid (nk : Nat) : (s.installSchedule nk).keyValid = true := rfl
@[simp] theorem State.installSchedule_nk (nk : Nat) : (s.installSchedule nk).nk = BitVec.ofNat 4 nk := rfl
@[simp] theorem State.installSchedule_nr (nk : Nat) : (s.installSchedule nk).nr = BitVec.ofNat 4 (nk + 6) := rfl
@[simp] theorem State.installSchedule_cursor (nk : Nat) : (s.installSchedule nk).cursor = 0 := rfl
@[simp] theorem State.installSchedule_latch (nk : Nat) : (s.installSchedule nk).latch = s.latch := rfl
@[simp] theorem State.installSchedule_keyLen (nk : Nat) : (s.installSchedule nk).keyLen = s.keyLen := rfl
@[simp] theorem State.installSchedule_key (nk : Nat) : (s.installSchedule nk).key = s.key := rfl
@[simp] theorem State.installSchedule_block (nk : Nat) : (s.installSchedule nk).block = s.block := rfl
@[simp] theorem State.installSchedule_rk (nk : Nat) : (s.installSchedule nk).rk = s.rk := rfl
@[simp] theorem State.installSchedule_gfA (nk : Nat) : (s.installSchedule nk).gfA = s.gfA := rfl
@[simp] theorem State.installSchedule_gfB (nk : Nat) : (s.installSchedule nk).gfB = s.gfB := rfl
@[simp] theorem State.installSchedule_gfR (nk : Nat) : (s.installSchedule nk).gfR = s.gfR := rfl
@[simp] theorem State.installSchedule_w (nk : Nat) : (s.installSchedule nk).w = keyExpansion s.key nk := rfl
@[simp] theorem State.installSchedule_events (nk : Nat) : (s.installSchedule nk).events = s.events := rfl
@[simp] theorem State.installSchedule_reads (nk : Nat) : (s.installSchedule nk).reads = s.reads := rfl
@[simp] theorem State.installSchedule_draws (nk : Nat) : (s.installSchedule nk).draws = s.draws := rfl

@[simp] theorem State.finishCursor_ie (p : BitVec 4) : (s.finishCursor p).ie = s.ie := rfl
@[simp] theorem State.finishCursor_phase (p : BitVec 4) : (s.finishCursor p).phase = .idle := rfl
@[simp] theorem State.finishCursor_done (p : BitVec 4) : (s.finishCursor p).done = true := rfl
@[simp] theorem State.finishCursor_err (p : BitVec 4) : (s.finishCursor p).err = s.err := rfl
@[simp] theorem State.finishCursor_errCode (p : BitVec 4) : (s.finishCursor p).errCode = s.errCode := rfl
@[simp] theorem State.finishCursor_keyValid (p : BitVec 4) : (s.finishCursor p).keyValid = s.keyValid := rfl
@[simp] theorem State.finishCursor_nk (p : BitVec 4) : (s.finishCursor p).nk = s.nk := rfl
@[simp] theorem State.finishCursor_nr (p : BitVec 4) : (s.finishCursor p).nr = s.nr := rfl
@[simp] theorem State.finishCursor_cursor (p : BitVec 4) : (s.finishCursor p).cursor = p := rfl
@[simp] theorem State.finishCursor_latch (p : BitVec 4) : (s.finishCursor p).latch = s.latch := rfl
@[simp] theorem State.finishCursor_keyLen (p : BitVec 4) : (s.finishCursor p).keyLen = s.keyLen := rfl
@[simp] theorem State.finishCursor_key (p : BitVec 4) : (s.finishCursor p).key = s.key := rfl
@[simp] theorem State.finishCursor_block (p : BitVec 4) : (s.finishCursor p).block = s.block := rfl
@[simp] theorem State.finishCursor_rk (p : BitVec 4) : (s.finishCursor p).rk = s.rk := rfl
@[simp] theorem State.finishCursor_gfA (p : BitVec 4) : (s.finishCursor p).gfA = s.gfA := rfl
@[simp] theorem State.finishCursor_gfB (p : BitVec 4) : (s.finishCursor p).gfB = s.gfB := rfl
@[simp] theorem State.finishCursor_gfR (p : BitVec 4) : (s.finishCursor p).gfR = s.gfR := rfl
@[simp] theorem State.finishCursor_w (p : BitVec 4) : (s.finishCursor p).w = s.w := rfl
@[simp] theorem State.finishCursor_events (p : BitVec 4) : (s.finishCursor p).events = s.events := rfl
@[simp] theorem State.finishCursor_reads (p : BitVec 4) : (s.finishCursor p).reads = s.reads := rfl
@[simp] theorem State.finishCursor_draws (p : BitVec 4) : (s.finishCursor p).draws = s.draws := rfl

@[simp] theorem State.loadRoundKey_ie (n : Nat) : (s.loadRoundKey n).ie = s.ie := rfl
@[simp] theorem State.loadRoundKey_phase (n : Nat) : (s.loadRoundKey n).phase = s.phase := rfl
@[simp] theorem State.loadRoundKey_done (n : Nat) : (s.loadRoundKey n).done = s.done := rfl
@[simp] theorem State.loadRoundKey_err (n : Nat) : (s.loadRoundKey n).err = s.err := rfl
@[simp] theorem State.loadRoundKey_errCode (n : Nat) : (s.loadRoundKey n).errCode = s.errCode := rfl
@[simp] theorem State.loadRoundKey_keyValid (n : Nat) : (s.loadRoundKey n).keyValid = s.keyValid := rfl
@[simp] theorem State.loadRoundKey_nk (n : Nat) : (s.loadRoundKey n).nk = s.nk := rfl
@[simp] theorem State.loadRoundKey_nr (n : Nat) : (s.loadRoundKey n).nr = s.nr := rfl
@[simp] theorem State.loadRoundKey_cursor (n : Nat) : (s.loadRoundKey n).cursor = s.cursor := rfl
@[simp] theorem State.loadRoundKey_latch (n : Nat) : (s.loadRoundKey n).latch = s.latch := rfl
@[simp] theorem State.loadRoundKey_keyLen (n : Nat) : (s.loadRoundKey n).keyLen = s.keyLen := rfl
@[simp] theorem State.loadRoundKey_key (n : Nat) : (s.loadRoundKey n).key = s.key := rfl
@[simp] theorem State.loadRoundKey_block (n : Nat) : (s.loadRoundKey n).block = s.block := rfl
@[simp] theorem State.loadRoundKey_rk (n : Nat) : (s.loadRoundKey n).rk = roundKey s.w n := rfl
@[simp] theorem State.loadRoundKey_gfA (n : Nat) : (s.loadRoundKey n).gfA = s.gfA := rfl
@[simp] theorem State.loadRoundKey_gfB (n : Nat) : (s.loadRoundKey n).gfB = s.gfB := rfl
@[simp] theorem State.loadRoundKey_gfR (n : Nat) : (s.loadRoundKey n).gfR = s.gfR := rfl
@[simp] theorem State.loadRoundKey_w (n : Nat) : (s.loadRoundKey n).w = s.w := rfl
@[simp] theorem State.loadRoundKey_events (n : Nat) : (s.loadRoundKey n).events = s.events := rfl
@[simp] theorem State.loadRoundKey_reads (n : Nat) : (s.loadRoundKey n).reads = s.reads := rfl
@[simp] theorem State.loadRoundKey_draws (n : Nat) : (s.loadRoundKey n).draws = s.draws := rfl

@[simp] theorem State.writeStatus_ie (v : Word) : (s.writeStatus v).ie = s.ie := rfl
@[simp] theorem State.writeStatus_phase (v : Word) : (s.writeStatus v).phase = s.phase := rfl
@[simp] theorem State.writeStatus_done (v : Word) : (s.writeStatus v).done = (if v.getLsbD 1 then false else s.done) := rfl
@[simp] theorem State.writeStatus_err (v : Word) : (s.writeStatus v).err = (if v.getLsbD 2 then false else s.err) := rfl
@[simp] theorem State.writeStatus_errCode (v : Word) : (s.writeStatus v).errCode = (if v.getLsbD 2 then .noError else s.errCode) := rfl
@[simp] theorem State.writeStatus_keyValid (v : Word) : (s.writeStatus v).keyValid = s.keyValid := rfl
@[simp] theorem State.writeStatus_nk (v : Word) : (s.writeStatus v).nk = s.nk := rfl
@[simp] theorem State.writeStatus_nr (v : Word) : (s.writeStatus v).nr = s.nr := rfl
@[simp] theorem State.writeStatus_cursor (v : Word) : (s.writeStatus v).cursor = s.cursor := rfl
@[simp] theorem State.writeStatus_latch (v : Word) : (s.writeStatus v).latch = s.latch := rfl
@[simp] theorem State.writeStatus_keyLen (v : Word) : (s.writeStatus v).keyLen = s.keyLen := rfl
@[simp] theorem State.writeStatus_key (v : Word) : (s.writeStatus v).key = s.key := rfl
@[simp] theorem State.writeStatus_block (v : Word) : (s.writeStatus v).block = s.block := rfl
@[simp] theorem State.writeStatus_rk (v : Word) : (s.writeStatus v).rk = s.rk := rfl
@[simp] theorem State.writeStatus_gfA (v : Word) : (s.writeStatus v).gfA = s.gfA := rfl
@[simp] theorem State.writeStatus_gfB (v : Word) : (s.writeStatus v).gfB = s.gfB := rfl
@[simp] theorem State.writeStatus_gfR (v : Word) : (s.writeStatus v).gfR = s.gfR := rfl
@[simp] theorem State.writeStatus_w (v : Word) : (s.writeStatus v).w = s.w := rfl
@[simp] theorem State.writeStatus_events (v : Word) : (s.writeStatus v).events = s.events := rfl
@[simp] theorem State.writeStatus_reads (v : Word) : (s.writeStatus v).reads = s.reads := rfl
@[simp] theorem State.writeStatus_draws (v : Word) : (s.writeStatus v).draws = s.draws := rfl

@[simp] theorem State.finishBlock_ie (b : Block) : (s.finishBlock b).ie = s.ie := rfl
@[simp] theorem State.finishBlock_phase (b : Block) : (s.finishBlock b).phase = .idle := rfl
@[simp] theorem State.finishBlock_done (b : Block) : (s.finishBlock b).done = true := rfl
@[simp] theorem State.finishBlock_err (b : Block) : (s.finishBlock b).err = s.err := rfl
@[simp] theorem State.finishBlock_errCode (b : Block) : (s.finishBlock b).errCode = s.errCode := rfl
@[simp] theorem State.finishBlock_keyValid (b : Block) : (s.finishBlock b).keyValid = s.keyValid := rfl
@[simp] theorem State.finishBlock_nk (b : Block) : (s.finishBlock b).nk = s.nk := rfl
@[simp] theorem State.finishBlock_nr (b : Block) : (s.finishBlock b).nr = s.nr := rfl
@[simp] theorem State.finishBlock_cursor (b : Block) : (s.finishBlock b).cursor = s.cursor := rfl
@[simp] theorem State.finishBlock_latch (b : Block) : (s.finishBlock b).latch = s.latch := rfl
@[simp] theorem State.finishBlock_keyLen (b : Block) : (s.finishBlock b).keyLen = s.keyLen := rfl
@[simp] theorem State.finishBlock_key (b : Block) : (s.finishBlock b).key = s.key := rfl
@[simp] theorem State.finishBlock_block (b : Block) : (s.finishBlock b).block = b := rfl
@[simp] theorem State.finishBlock_rk (b : Block) : (s.finishBlock b).rk = s.rk := rfl
@[simp] theorem State.finishBlock_gfA (b : Block) : (s.finishBlock b).gfA = s.gfA := rfl
@[simp] theorem State.finishBlock_gfB (b : Block) : (s.finishBlock b).gfB = s.gfB := rfl
@[simp] theorem State.finishBlock_gfR (b : Block) : (s.finishBlock b).gfR = s.gfR := rfl
@[simp] theorem State.finishBlock_w (b : Block) : (s.finishBlock b).w = s.w := rfl
@[simp] theorem State.finishBlock_events (b : Block) : (s.finishBlock b).events = s.events := rfl
@[simp] theorem State.finishBlock_reads (b : Block) : (s.finishBlock b).reads = s.reads := rfl
@[simp] theorem State.finishBlock_draws (b : Block) : (s.finishBlock b).draws = s.draws := rfl

@[simp] theorem State.finishCipher_ie (out : Block × Nat) : (s.finishCipher out).ie = s.ie := rfl
@[simp] theorem State.finishCipher_phase (out : Block × Nat) : (s.finishCipher out).phase = .idle := rfl
@[simp] theorem State.finishCipher_done (out : Block × Nat) : (s.finishCipher out).done = true := rfl
@[simp] theorem State.finishCipher_err (out : Block × Nat) : (s.finishCipher out).err = s.err := rfl
@[simp] theorem State.finishCipher_errCode (out : Block × Nat) : (s.finishCipher out).errCode = s.errCode := rfl
@[simp] theorem State.finishCipher_keyValid (out : Block × Nat) : (s.finishCipher out).keyValid = s.keyValid := rfl
@[simp] theorem State.finishCipher_nk (out : Block × Nat) : (s.finishCipher out).nk = s.nk := rfl
@[simp] theorem State.finishCipher_nr (out : Block × Nat) : (s.finishCipher out).nr = s.nr := rfl
@[simp] theorem State.finishCipher_cursor (out : Block × Nat) : (s.finishCipher out).cursor = BitVec.ofNat 4 out.2 := rfl
@[simp] theorem State.finishCipher_latch (out : Block × Nat) : (s.finishCipher out).latch = s.latch := rfl
@[simp] theorem State.finishCipher_keyLen (out : Block × Nat) : (s.finishCipher out).keyLen = s.keyLen := rfl
@[simp] theorem State.finishCipher_key (out : Block × Nat) : (s.finishCipher out).key = s.key := rfl
@[simp] theorem State.finishCipher_block (out : Block × Nat) : (s.finishCipher out).block = out.1 := rfl
@[simp] theorem State.finishCipher_rk (out : Block × Nat) : (s.finishCipher out).rk = s.rk := rfl
@[simp] theorem State.finishCipher_gfA (out : Block × Nat) : (s.finishCipher out).gfA = s.gfA := rfl
@[simp] theorem State.finishCipher_gfB (out : Block × Nat) : (s.finishCipher out).gfB = s.gfB := rfl
@[simp] theorem State.finishCipher_gfR (out : Block × Nat) : (s.finishCipher out).gfR = s.gfR := rfl
@[simp] theorem State.finishCipher_w (out : Block × Nat) : (s.finishCipher out).w = s.w := rfl
@[simp] theorem State.finishCipher_events (out : Block × Nat) : (s.finishCipher out).events = s.events := rfl
@[simp] theorem State.finishCipher_reads (out : Block × Nat) : (s.finishCipher out).reads = s.reads := rfl
@[simp] theorem State.finishCipher_draws (out : Block × Nat) : (s.finishCipher out).draws = s.draws := rfl

@[simp] theorem State.popEvent_of_nil (h : s.events = []) : s.popEvent = s := by
  cases s; simp_all [State.popEvent]

end Sys2Proof.Machine
end

