-- ==== Sys2Proof/Laws/Ops.lean ====
section
/-! SUPPORT. Laws of the shared operations: for each, what it can do, said once. -/

namespace Sys2Proof.Machine

variable (s : State)

theorem phase_cases : s.phase = .idle ∨ s.phase = .busy := by
  cases s.phase <;> simp

/-! ## The expanded-key memory -/

theorem wordAt_of_lt (w : Schedule) {i : Nat} (h : i < 60) : wordAt w i = w[i] := by
  simp [wordAt, h]

theorem getElem?_eq_wordAt (w : Schedule) {i : Nat} (h : i < 60) : w[i]? = some (wordAt w i) := by
  simp [wordAt, h]

/-- A word read after a write: the value written at that index, the old word elsewhere. -/
theorem wordAt_setWord (w : Schedule) (i j : Nat) (v : Word) (hi : i < 60) :
    wordAt (setWord w i v) j = if j = i then v else wordAt w j := by
  unfold wordAt setWord
  by_cases hj : j < 60
  · simp only [hj, dif_pos, Vector.getElem_setIfInBounds, eq_comm (a := i)]
  · have : j ≠ i := by omega
    simp [hj, this]

@[simp] theorem wordAt_cleared (i : Nat) : wordAt clearedSchedule i = 0 := by
  unfold wordAt clearedSchedule
  split <;> simp

/-! ## Commands that need the schedule (rule R294) -/

theorem withSchedule_of_valid (body : Result) (h : s.keyValid = true) : s.withSchedule body = body := by
  simp [State.withSchedule, h]

theorem withSchedule_of_noKey (body : Result) (h : s.keyValid = false) :
    s.withSchedule body = .next (s.raiseError .noKey) := by
  simp [State.withSchedule, h]

/-- All that a command under `withSchedule` can do. -/
theorem withSchedule_cases {body : Result} {t : State} (h : s.withSchedule body = .next t) :
    (s.keyValid = true ∧ body = .next t) ∨ (s.keyValid = false ∧ t = s.raiseError .noKey) := by
  cases hk : s.keyValid
  · rw [withSchedule_of_noKey s body hk] at h
    exact .inr ⟨rfl, (Host.Outcome.next.inj h).symm⟩
  · rw [withSchedule_of_valid s body hk] at h
    exact .inl ⟨rfl, h⟩

/-! ## The host port -/

theorem readPort_of_idle (r : Reg) (h : s.phase = .idle) : s.readPort r = s.returnRead (s.regValue r) := by
  simp [State.readPort, h]

theorem readPort_of_busy (r : Reg) (h : s.phase = .busy) : s.readPort r =
    { s with reads := s.reads ++ [s.busyRegValue (Config.busyRead s.draws) r],
             draws := if r.unsettled then s.draws + 1 else s.draws } := by
  cases hr : r.unsettled <;> simp [State.readPort, h, hr, State.returnRead, State.countDraw]

/-- All that a read can do: the host gets one value, and the core's own state is as it was (rule R85). -/
theorem readPort_frame (r : Reg) : ∃ v n, s.readPort r = { s with reads := s.reads ++ [v], draws := n } := by
  rcases phase_cases s with h | h
  · exact ⟨_, s.draws, readPort_of_idle s r h⟩
  · exact ⟨_, _, readPort_of_busy s r h⟩

theorem writePort_of_idle (v : Word) (r : Reg) (h : s.phase = .idle) : s.writePort v r = s.writeReg v r := by
  simp [State.writePort, h]

theorem writePort_of_busy (v : Word) (r : Reg) (h : s.phase = .busy) : s.writePort v r = s.recordBusyWrite := by
  simp [State.writePort, h]

/-! ## The register map (rule R31) -/

theorem regOf_key (m : Fin 8) : regOf (0x010 + 4 * m.val) = .key m := by
  revert m; decide

theorem regOf_block (j : Fin 4) : regOf (0x030 + 4 * j.val) = .block j := by
  revert j; decide

theorem regOf_rk (j : Fin 4) : regOf (0x040 + 4 * j.val) = .rk j := by
  revert j; decide

theorem regOf_ekey (j : Fin 60) : regOf (0x100 + 4 * j.val) = .ekey j := by
  revert j; decide

/-- From 0x058 on the map has GF_R, the EKEY window and reserved offsets only (rules R31 and R55). -/
theorem regOf_high {a : Nat} (h : 0x058 ≤ a) : regOf a =
    if a = 0x058 then .gfR else if 0x100 ≤ a ∧ a < 0x1F0 then .ekey (Fin.ofNat _ ((a - 0x100) / 4)) else .reserved := by
  unfold regOf
  rw [if_neg (show ¬ a = 0x000 by omega), if_neg (show ¬ a = 0x004 by omega), if_neg (show ¬ a = 0x008 by omega),
    if_neg (show ¬ a = 0x00C by omega), if_neg (show ¬ (0x010 ≤ a ∧ a < 0x030) by omega),
    if_neg (show ¬ (0x030 ≤ a ∧ a < 0x040) by omega), if_neg (show ¬ (0x040 ≤ a ∧ a < 0x050) by omega),
    if_neg (show ¬ a = 0x050 by omega), if_neg (show ¬ a = 0x054 by omega)]

/-- The reserved offsets (rules R31 and R55). -/
theorem regOf_reserved {a : Nat} (h : (0x05C ≤ a ∧ a < 0x100) ∨ 0x1F0 ≤ a) : regOf a = .reserved := by
  rw [regOf_high (by omega), if_neg (show ¬ a = 0x058 by omega), if_neg (show ¬ (0x100 ≤ a ∧ a < 0x1F0) by omega)]

/-- The offsets from 0x058 on name registers that a write does not change (rule R55). -/
theorem regOf_readOnly {a : Nat} (h : 0x058 ≤ a) : regOf a = .gfR ∨ (∃ j, regOf a = .ekey j) ∨ regOf a = .reserved := by
  rw [regOf_high h]
  by_cases h1 : a = 0x058
  · exact .inl (if_pos h1)
  · rw [if_neg h1]
    by_cases h2 : 0x100 ≤ a ∧ a < 0x1F0
    · exact .inr (.inl ⟨_, if_pos h2⟩)
    · exact .inr (.inr (if_neg h2))

/-- The aligned offset at which a register stands (the table of rule R31); for a reserved offset, that it lies past GF_R. -/
def Reg.standsAt (a : Nat) : Reg → Bool
  | .ctrl => a == 0x000
  | .status => a == 0x004
  | .cmd => a == 0x008
  | .keyLen => a == 0x00C
  | .key m => a == 0x010 + 4 * m.val
  | .block j => a == 0x030 + 4 * j.val
  | .rk j => a == 0x040 + 4 * j.val
  | .gfA => a == 0x050
  | .gfB => a == 0x054
  | .gfR => a == 0x058
  | .ekey j => a == 0x100 + 4 * j.val
  | .reserved => decide (0x05C ≤ a)

/-- Back from the register that an offset names to the aligned offset (rules R31 and R84). -/
theorem standsAt_regAt : ∀ off : BitVec 12, (regAt off).standsAt (off &&& 0xFFC).toNat = true := by
  decide +kernel

/-! ## Whose move is next (rule R91) -/

theorem coreMove_of_idle (h : s.phase = .idle) : s.coreMove = .rest := by
  simp [State.coreMove, h]

theorem coreMove_of_instr (h : s.phase = .busy) {i : Instr} (hd : decodeCommand s.latch = .instr i) :
    s.coreMove = .run i := by
  simp [State.coreMove, h, hd]

theorem coreMove_of_illegal (h : s.phase = .busy) {why : IllegalWord} (hd : decodeCommand s.latch = .illegal why) :
    s.coreMove = .illegal := by
  simp [State.coreMove, h, hd]

theorem turn_of_transaction {b : Transaction} {rest : List Event} (h : s.events = .transaction b :: rest) :
    s.turn = .run (decodeTransaction b) := by
  simp [State.turn, h]

theorem turn_of_reset {lost : Option Transaction} {rest : List Event} (h : s.events = .reset lost :: rest) :
    s.turn = .reset := by
  simp [State.turn, h]

/-- With no move of the host's left, or on its own turn, the core moves. -/
theorem turn_of_coreTurn (h : s.events = [] ∨ ∃ rest, s.events = .coreTurn :: rest) : s.turn = s.coreMove := by
  obtain h | ⟨rest, h⟩ := h <;> simp [State.turn, h]

/-- All that a step can be. -/
theorem step_cases :
    (∃ i, s.turn = .run i ∧ step s = exec i s.popEvent) ∨
    (s.turn = .illegal ∧ step s = .next (s.popEvent.raiseError .opcode)) ∨
    (s.turn = .reset ∧ step s = .next s.popEvent.takeReset) ∨
    (s.turn = .rest ∧ step s = .next s.popEvent) := by
  cases h : s.turn with
  | run i => exact .inl ⟨i, rfl, by simp [step, h]⟩
  | illegal => exact .inr (.inl ⟨rfl, by simp [step, h, completeIllegal]⟩)
  | reset => exact .inr (.inr (.inl ⟨rfl, by simp [step, h]⟩))
  | rest => exact .inr (.inr (.inr ⟨rfl, by simp [step, h]⟩))

end Sys2Proof.Machine
end

