-- ==== Sys2Proof/Laws/Ecb.lean ====
section
/-! SUPPORT. Laws of the host's notation and procedures (rules R119 to R121, R270 and R271): which instruction a `sw` or a
`lw` is, and how the loop over the chunks and its reads grow by one pass. -/

namespace Sys2Proof.Machine

/-- The bits of `HostWrite(off, data)` are that instruction's (rule R111). -/
@[simp] theorem decodeTransaction_hostWriteBits (off : BitVec 12) (data : Word) :
    decodeTransaction (hostWriteBits off data) = .hostWrite off data := by
  have hwe : (hostWriteBits off data).getLsbD 44 = true := by
    simp only [hostWriteBits, BitVec.getLsbD_append]; rfl
  have hoff : (hostWriteBits off data).extractLsb' 32 12 = off := by
    refine BitVec.eq_of_getLsbD_eq fun i hi => ?_
    simp only [hostWriteBits, BitVec.getLsbD_extractLsb', BitVec.getLsbD_append]
    simp [hi]
  have hdata : (hostWriteBits off data).extractLsb' 0 32 = data := by
    refine BitVec.eq_of_getLsbD_eq fun i hi => ?_
    simp only [hostWriteBits, BitVec.getLsbD_extractLsb', BitVec.getLsbD_append]
    simp [hi]
  rw [decodeTransaction, if_pos hwe, hoff, hdata]

/-- The bits of `HostRead(off)` are that instruction's (rule R111). -/
@[simp] theorem decodeTransaction_hostReadBits (off : BitVec 12) : decodeTransaction (hostReadBits off) = .hostRead off := by
  have hwe : ¬ (hostReadBits off).getLsbD 44 = true := by
    simp only [hostReadBits, BitVec.getLsbD_append]; exact Bool.false_ne_true
  have hoff : (hostReadBits off).extractLsb' 32 12 = off := by
    refine BitVec.eq_of_getLsbD_eq fun i hi => ?_
    simp only [hostReadBits, BitVec.getLsbD_extractLsb', BitVec.getLsbD_append]
    simp [hi]
  rw [decodeTransaction, if_neg hwe, hoff]

/-- A `sw` at the head of the events is a host write (rule R120). -/
theorem turn_of_sw (s : State) {off : BitVec 12} {v : Word} {rest : List Event} (h : s.events = sw off v :: rest) :
    s.turn = .run (.hostWrite off v) := by
  rw [turn_of_transaction s h, decodeTransaction_hostWriteBits]

/-- A `lw` at the head of the events is a host read (rule R120). -/
theorem turn_of_lw (s : State) {off : BitVec 12} {rest : List Event} (h : s.events = lw off :: rest) :
    s.turn = .run (.hostRead off) := by
  rw [turn_of_transaction s h, decodeTransaction_hostReadBits]

@[simp] theorem length_aesWait (polls : Nat) : (aesWait polls).length = polls + 2 := by
  simp [aesWait, poll]

@[simp] theorem length_chunkScript (command : Word) (bytes : List Byte) (polls : Nat) :
    (chunkScript command bytes polls).length = polls + 11 := by
  simp [chunkScript, wr128, rd128]; omega

/-- The reads of the passes before pass `j + 1` are those before pass `j` and its own (rule R270). -/
@[simp] theorem readsBefore_zero (polls : Nat → Nat) : readsBefore polls 0 = 0 := rfl

@[simp] theorem readsBefore_succ (polls : Nat → Nat) (j : Nat) :
    readsBefore polls (j + 1) = readsBefore polls j + (polls j + 5) := by
  simp [readsBefore, List.range_succ]

end Sys2Proof.Machine
end

