-- ==== Sys2Proof/Laws/Field.lean ====
section
/-! SUPPORT. Laws of the field functions: `xtime` and, in its second argument, `mul` are linear over XOR (rules R142 and
R143), so a fact about them follows from the eight powers of x. -/

namespace Sys2Proof.Machine

theorem xtime_xor (a b : Byte) : xtime (a ^^^ b) = xtime a ^^^ xtime b := by
  have hb : (a ^^^ b).getLsbD 7 = (a.getLsbD 7 ^^ b.getLsbD 7) := BitVec.getLsbD_xor
  unfold xtime
  rw [hb, BitVec.shiftLeft_xor_distrib]
  cases a.getLsbD 7 <;> cases b.getLsbD 7 <;> simp only [Bool.xor_true, Bool.xor_false, Bool.not_true, Bool.not_false, if_true]
  · simp
  · simp [BitVec.xor_assoc]
  · simp; ac_rfl
  · rw [show ∀ x y c : Byte, (x ^^^ c) ^^^ (y ^^^ c) = (x ^^^ y) ^^^ (c ^^^ c) from fun x y c => by ac_rfl, BitVec.xor_self]
    simp

/-- One pass of the loop of rule R143 is linear in the pair it works on. -/
theorem mulStep_xor (a : Byte) (p q : Byte × Byte) (i : Nat) : mulStep a (p.1 ^^^ q.1, p.2 ^^^ q.2) i =
    ((mulStep a p i).1 ^^^ (mulStep a q i).1, (mulStep a p i).2 ^^^ (mulStep a q i).2) := by
  unfold mulStep
  rw [xtime_xor]
  cases isBitSet a i
  · rfl
  · exact Prod.ext (by simp only [if_true]; ac_rfl) rfl

theorem foldl_mulStep_xor (a : Byte) (is : List Nat) : ∀ p q : Byte × Byte,
    is.foldl (mulStep a) (p.1 ^^^ q.1, p.2 ^^^ q.2) =
      ((is.foldl (mulStep a) p).1 ^^^ (is.foldl (mulStep a) q).1, (is.foldl (mulStep a) p).2 ^^^ (is.foldl (mulStep a) q).2) := by
  induction is with
  | nil => exact fun _ _ => rfl
  | cons i is ih => intro p q; rw [List.foldl_cons, mulStep_xor, ih]; rfl

theorem mul_xor (a b c : Byte) : mul a (b ^^^ c) = mul a b ^^^ mul a c := by
  have h := foldl_mulStep_xor a (List.range 8) (0x00, b) (0x00, c)
  simp only [BitVec.xor_self] at h
  exact congrArg Prod.fst h

end Sys2Proof.Machine
end

