-- ==== Sys2Proof/Laws/Flags.lean ====
section
/-! SUPPORT. Laws of the STATUS word: each of its bits, while idle and while BUSY (rules R33 and R56). -/

namespace Sys2Proof.Machine

variable (s : State)

/-- The bits of the STATUS word (rule R33). -/
theorem getLsbD_statusWord (i : Nat) : s.statusWord.getLsbD i =
    if i = 0 then s.busyFlag else if i = 1 then s.done else if i = 2 then s.err else if i = 3 then s.keyValid
    else if i < 8 then false else if i < 12 then s.errCode.bits.getLsbD (i - 8) else if i < 16 then false
    else if i < 20 then s.nk.getLsbD (i - 16) else if i < 24 then s.nr.getLsbD (i - 20)
    else if i < 28 then s.cursor.getLsbD (i - 24) else false := by
  rcases Nat.lt_or_ge i 32 with h | h
  · unfold State.statusWord
    simp only [BitVec.getLsbD_append]
    interval_cases i <;> simp
  · rw [BitVec.getLsbD_of_ge _ _ h]
    repeat rw [if_neg (by omega)]

/-- The bits that a STATUS read while BUSY takes from the free draw (rule R56). -/
theorem getLsbD_statusFreeBits (i : Nat) : statusFreeBits.getLsbD i = decide (i = 3 ∨ (16 ≤ i ∧ i < 28)) := by
  rcases Nat.lt_or_ge i 32 with h | h
  · interval_cases i <;> decide
  · rw [BitVec.getLsbD_of_ge _ _ h, decide_eq_false (by omega)]

/-- A bit of a STATUS read while BUSY: the draw's where the field is free, the register's elsewhere (rule R56). -/
theorem getLsbD_busyStatusWord (draw : Word) {i : Nat} (h : i < 32) : (s.busyStatusWord draw).getLsbD i =
    if i = 3 ∨ (16 ≤ i ∧ i < 28) then draw.getLsbD i else s.statusWord.getLsbD i := by
  unfold State.busyStatusWord
  rw [BitVec.getLsbD_or, BitVec.getLsbD_and, BitVec.getLsbD_and, BitVec.getLsbD_not, getLsbD_statusFreeBits]
  by_cases hf : i = 3 ∨ (16 ≤ i ∧ i < 28)
  · rw [if_pos hf, decide_eq_true hf]; simp
  · rw [if_neg hf, decide_eq_false hf]; simp [h]

end Sys2Proof.Machine
end

