-- ==== Sys2Proof/Laws/PerInstr.lean ====
section
/-! SUPPORT. PerInstr: what holds of every instruction as syntax, one lemma per constructor. The family EncodedForm: a
command of rule R115 is encoded as a 32-bit command word, a host transaction of rule R111 as 45 bits whose top bit is
`we` (rule R110). -/

namespace Sys2Proof.Laws

/-- The instruction is encoded in the form rule R110 gives it. -/
def EncodedForm.Statement (i : Instr) : Prop :=
  match encode i with
  | .command _ => i.isCommand = true
  | .transaction b => i.isCommand = false ∧ (b.getLsbD 44 = true ↔ ∃ off data, i = .hostWrite off data)

theorem EncodedForm.nop : EncodedForm.Statement .nop := rfl

theorem EncodedForm.gfBittest : EncodedForm.Statement .gfBittest := rfl

theorem EncodedForm.gfXtime : EncodedForm.Statement .gfXtime := rfl

theorem EncodedForm.gfMul : EncodedForm.Statement .gfMul := rfl

theorem EncodedForm.gfInv : EncodedForm.Statement .gfInv := rfl

theorem EncodedForm.gfSbox : EncodedForm.Statement .gfSbox := rfl

theorem EncodedForm.gfInvsbox : EncodedForm.Statement .gfInvsbox := rfl

theorem EncodedForm.keyExpand : EncodedForm.Statement .keyExpand := rfl

theorem EncodedForm.rkResetFwd : EncodedForm.Statement .rkResetFwd := rfl

theorem EncodedForm.rkResetBwd : EncodedForm.Statement .rkResetBwd := rfl

theorem EncodedForm.rkNextEnc : EncodedForm.Statement .rkNextEnc := rfl

theorem EncodedForm.rkNextDec : EncodedForm.Statement .rkNextDec := rfl

theorem EncodedForm.rkLoad (n : Nat) : EncodedForm.Statement (.rkLoad n) := rfl

theorem EncodedForm.subBytes : EncodedForm.Statement .subBytes := rfl

theorem EncodedForm.invSubBytes : EncodedForm.Statement .invSubBytes := rfl

theorem EncodedForm.shiftRows : EncodedForm.Statement .shiftRows := rfl

theorem EncodedForm.invShiftRows : EncodedForm.Statement .invShiftRows := rfl

theorem EncodedForm.mixColumns : EncodedForm.Statement .mixColumns := rfl

theorem EncodedForm.invMixColumns : EncodedForm.Statement .invMixColumns := rfl

theorem EncodedForm.addRoundKey : EncodedForm.Statement .addRoundKey := rfl

theorem EncodedForm.encBlock : EncodedForm.Statement .encBlock := rfl

theorem EncodedForm.decBlock : EncodedForm.Statement .decBlock := rfl

theorem EncodedForm.hostRead (off : BitVec 12) : EncodedForm.Statement (.hostRead off) := by
  have h : (hostReadBits off).getLsbD 44 = false := by
    simp only [hostReadBits, BitVec.getLsbD_append]; rfl
  refine ⟨rfl, ?_⟩
  rw [h]
  simp

theorem EncodedForm.hostWrite (off : BitVec 12) (data : Word) : EncodedForm.Statement (.hostWrite off data) := by
  have h : (hostWriteBits off data).getLsbD 44 = true := by
    simp only [hostWriteBits, BitVec.getLsbD_append]; rfl
  refine ⟨rfl, ?_⟩
  rw [h]
  simp

end Sys2Proof.Laws
end

