-- ==== Sys2Proof/Tests/Slice0.lean ====
section
/-! SUPPORT. Slice0: tests of the model. Words are written out bit by bit from the tables of R111 to R115; expected values
are the spec's worked examples (rules R150 to R267 and 95_test_vectors.md sections 1 and 2, cited by number). The last part
has, for each obligation with hypotheses, a concrete state that meets them. -/

namespace Sys2Proof.Tests

open Sys2Proof Sys2Proof.Machine

/-! ## States and readers -/

/-- Input A of section 2.9, the plaintext of section 1.1. -/
def inputA : Block := #v[0x00112233, 0x44556677, 0x8899aabb, 0xccddeeff]

/-- Input B of section 2.9, the index state. -/
def inputB : Block := #v[0x00010203, 0x04050607, 0x08090a0b, 0x0c0d0e0f]

/-- The key bytes 00, 01, .., 1f of section 1.1. -/
def keyWords : KeyRegs :=
  #v[0x00010203, 0x04050607, 0x08090a0b, 0x0c0d0e0f, 0x10111213, 0x14151617, 0x18191a1b, 0x1c1d1e1f]

/-- An idle state with operands and no key: input A in STATE, input B in RK. -/
def loaded : State := { State.reset with ie := true, block := inputA, rk := inputB, key := keyWords }

/-- A schedule whose words are their own indices: it shows which words a command takes. -/
def indexSchedule : Schedule := Vector.ofFn fun i => BitVec.ofNat 32 i.val

/-- The state `loaded` with a schedule marked valid, for NR = 10 and the cursor at `p`. -/
def ready (p : BitVec 4) : State := { loaded with keyLen := 16, keyValid := true, nk := 4, nr := 10, cursor := p, w := indexSchedule }

/-- The state `loaded` with the AES-128 schedule of section 2.7.1. -/
def expanded : State := { loaded with keyLen := 16, keyValid := true, nk := 4, nr := 10, w := keyExpansion keyWords 4 }

/-- The state `s` with the field-unit operands. -/
def operands (a b : Byte) : State := { loaded with gfA := a, gfB := b }

/-- What `f` sees in the next state. -/
def see {α : Type} (f : State → α) : Result → Option α
  | .next t => some (f t)
  | .fault _ => none
  | .refused _ => none

/-- The STATUS word of the next state, as an idle read gives it. -/
def status : Result → Option Word := see State.statusWord

/-- The value that the last read returned. -/
def lastRead : Result → Option (Option Word) := see fun t => t.reads.getLast?

/-! ## WellFormed: the one check -/

theorem test_wellFormed_refuses_index_16 : (Instr.rkLoad 16).wellFormed = false := by decide

theorem test_wellFormed_admits_index_15 : (Instr.rkLoad 15).wellFormed = true := by decide

/-! ## Decoding: every row of R115, and format H (R111) -/

theorem test_decode_nop : decodeCommand 0b00000000000000000000000000000000#32 = .instr .nop := by decide
theorem test_decode_gfBittest : decodeCommand 0b00000000000000000000000000000001#32 = .instr .gfBittest := by decide
theorem test_decode_gfXtime : decodeCommand 0b00000000000000000000000000000010#32 = .instr .gfXtime := by decide
theorem test_decode_gfMul : decodeCommand 0b00000000000000000000000000000011#32 = .instr .gfMul := by decide
theorem test_decode_gfInv : decodeCommand 0b00000000000000000000000000000100#32 = .instr .gfInv := by decide
theorem test_decode_gfSbox : decodeCommand 0b00000000000000000000000000000101#32 = .instr .gfSbox := by decide
theorem test_decode_gfInvsbox : decodeCommand 0b00000000000000000000000000000110#32 = .instr .gfInvsbox := by decide
theorem test_decode_keyExpand : decodeCommand 0b00000000000000000000000000010000#32 = .instr .keyExpand := by decide
theorem test_decode_rkResetFwd : decodeCommand 0b00000000000000000000000000010001#32 = .instr .rkResetFwd := by decide
theorem test_decode_rkResetBwd : decodeCommand 0b00000000000000000000000000010010#32 = .instr .rkResetBwd := by decide
theorem test_decode_rkNextEnc : decodeCommand 0b00000000000000000000000000010011#32 = .instr .rkNextEnc := by decide
theorem test_decode_rkNextDec : decodeCommand 0b00000000000000000000000000010100#32 = .instr .rkNextDec := by decide
theorem test_decode_rkLoad_11 : decodeCommand 0b00000000000000000000101100010101#32 = .instr (.rkLoad 11) := by decide
theorem test_decode_subBytes : decodeCommand 0b00000000000000000000000000100000#32 = .instr .subBytes := by decide
theorem test_decode_invSubBytes : decodeCommand 0b00000000000000000000000000100001#32 = .instr .invSubBytes := by decide
theorem test_decode_shiftRows : decodeCommand 0b00000000000000000000000000100010#32 = .instr .shiftRows := by decide
theorem test_decode_invShiftRows : decodeCommand 0b00000000000000000000000000100011#32 = .instr .invShiftRows := by decide
theorem test_decode_mixColumns : decodeCommand 0b00000000000000000000000000100100#32 = .instr .mixColumns := by decide
theorem test_decode_invMixColumns : decodeCommand 0b00000000000000000000000000100101#32 = .instr .invMixColumns := by decide
theorem test_decode_addRoundKey : decodeCommand 0b00000000000000000000000000100110#32 = .instr .addRoundKey := by decide
theorem test_decode_encBlock : decodeCommand 0b00000000000000000000000000110000#32 = .instr .encBlock := by decide
theorem test_decode_decBlock : decodeCommand 0b00000000000000000000000000110001#32 = .instr .decBlock := by decide

/-- `lw t, STATUS`, 0 004 00000000 (section 3.1); the data bits of a read are ignored. -/
theorem test_decode_hostRead :
    decodeTransaction 0b000000000010000000000000000000000000000000000#45 = .hostRead 0x004 ∧
    decodeTransaction 0b000000000010000000000000000000000000000000111#45 = .hostRead 0x004 := by decide

/-- `sw KEYLEN, 16` is the number 0x100C00000010 (section 3 of 95_test_vectors.md). -/
theorem test_decode_hostWrite :
    decodeTransaction 0b100000000110000000000000000000000000000010000#45 = .hostWrite 0x00C 16 ∧
    decodeTransaction 0x100C00000010#45 = .hostWrite 0x00C 16 := by decide

/-- The illegal words of sections 2.8 and 2.11 and the ends of the unlisted ranges of R117. -/
theorem test_decode_illegal :
    ([0x07, 0x0F, 0x16, 0x1F, 0x27, 0x2F, 0x32, 0xFF] : List Word).all
      (fun v => decodeCommand v == .illegal .unlistedOpcode) = true ∧
    ([0x00010015, 0x00000113, 0x00000100, 0x80000030, 0x00001015] : List Word).all
      (fun v => decodeCommand v == .illegal .reservedBits) = true := by decide

/-- The numbering of spec/opcode_table.json: a command has 32 bits, a transaction 48 with the top three zero. -/
theorem test_decodeTableWord :
    decodeTableWord 32 0x00000A15 = some (.rkLoad 10) ∧ decodeTableWord 32 0x00000007 = none ∧
    decodeTableWord 48 0x100C00000010 = some (.hostWrite 0x00C 16) ∧ decodeTableWord 48 0x000400000000 = some (.hostRead 0x004) := by
  decide

/-- `withFetchWord` makes the next step run the instruction: NOP from reset sets DONE and nothing else (R265). -/
theorem test_withFetchWord_command :
    see id (step (State.reset.withFetchWord 32 0x00000000)) = some { State.reset with done := true } := by decide

theorem test_withFetchWord_transaction :
    see id (step (State.reset.withFetchWord 48 0x105000000057)) = some { State.reset with gfA := 0x57 } := by decide

/-! ## The field unit (sections 2.1 to 2.5) -/

theorem test_gfBittest_set : see State.gfR (exec .gfBittest (operands 0x57 0x04)) = some 0x01 := by decide

/-- An index beyond the byte. -/
theorem test_gfBittest_index_8 :
    see State.gfR (exec .gfBittest (operands 0xff 0x08)) = some 0x00 ∧ see State.gfR (exec .gfBittest (operands 0x57 0xff)) = some 0x00 ∧
    see State.gfR (exec .gfBittest (operands 0x80 0x07)) = some 0x01 := by decide

theorem test_gfXtime_no_reduction : see State.gfR (exec .gfXtime (operands 0x57 0x00)) = some 0xae := by decide

theorem test_gfXtime_reduction :
    see State.gfR (exec .gfXtime (operands 0xae 0x00)) = some 0x47 ∧ see State.gfR (exec .gfXtime (operands 0x80 0x00)) = some 0x1b := by decide

theorem test_gfMul : see State.gfR (exec .gfMul (operands 0x57 0x83)) = some 0xc1 := by decide

theorem test_gfMul_two_ways :
    see State.gfR (exec .gfMul (operands 0x0e 0x09)) = some 0x7e ∧ see State.gfR (exec .gfMul (operands 0xff 0xff)) = some 0x13 := by decide

/-- The trap of 90_conflicts.md C3: 0xca, not 0x3d. -/
theorem test_gfInv : see State.gfR (exec .gfInv (operands 0x53 0x00)) = some 0xca := by decide

/-- The whole table of section 2.4. -/
theorem test_gfInv_table : ∀ a : Byte, invTable[a.toNat]? = some (inv a) := by decide +kernel

theorem test_gfSbox : see State.gfR (exec .gfSbox (operands 0x53 0x00)) = some 0xed ∧
    see State.gfR (exec .gfSbox (operands 0x00 0x00)) = some 0x63 := by decide

theorem test_gfInvsbox : see State.gfR (exec .gfInvsbox (operands 0xed 0x00)) = some 0x53 ∧
    see State.gfR (exec .gfInvsbox (operands 0x00 0x00)) = some 0x52 := by decide

/-! ## Key schedule and cursor (sections 2.7 and 2.8) -/

/-- Rows 1 and 10 of section 2.7.1 and the zeros past the key; STATUS of section 2.7.5. -/
theorem test_keyExpand_128 :
    see (fun t => (roundKey t.w 1, roundKey t.w 10, roundKey t.w 11)) (exec .keyExpand { loaded with keyLen := 16 }) =
      some (#v[0xd6aa74fd, 0xd2af72fa, 0xdaa678f1, 0xd6ab76fe], #v[0x13111d7f, 0xe3944a17, 0xf307a78b, 0x4d2b30c5], #v[0, 0, 0, 0]) ∧
    status (exec .keyExpand { loaded with keyLen := 16 }) = some 0x00A4000A := by decide +kernel

/-- Row 12 of section 2.7.2; rows 3 and 14 of section 2.7.3, the `i mod Nk = 4` branch. -/
theorem test_keyExpand_192_and_256 :
    see (fun t => (roundKey t.w 12, t.statusWord)) (exec .keyExpand { loaded with keyLen := 24 }) =
      some (#v[0xa4970a33, 0x1a78dc09, 0xc418c271, 0xe3a41d5d], 0x00C6000A) ∧
    see (fun t => (roundKey t.w 3, roundKey t.w 14, t.statusWord)) (exec .keyExpand { loaded with keyLen := 32 }) =
      some (#v[0x1651a8cd, 0x0244beda, 0x1a5da4c1, 0x0640bade], #v[0x24fc79cc, 0xbf0979e9, 0x371ac23c, 0x6d68de36], 0x00E8000A) := by
  decide +kernel

/-- The illegal lengths of section 2.7.5. -/
theorem test_keyExpand_illegal_lengths :
    ([0, 15, 17, 20, 33, 255] : List Byte).map (fun n => status (exec .keyExpand { loaded with keyLen := n })) =
      List.replicate 6 (some 0x00000206) := by decide

theorem test_rkResetFwd : see State.cursor (exec .rkResetFwd (ready 11)) = some 0 := by decide

/-- CURSOR = 15 with NR = 14 (the example of R202). -/
theorem test_rkResetBwd : see State.cursor (exec .rkResetBwd (ready 0)) = some 11 ∧
    see State.cursor (exec .rkResetBwd { ready 0 with nr := 14 }) = some 15 := by decide

/-- Lines 2, 3 and 6 of section 2.8, with the words' indices in the place of the words. -/
theorem test_rkNextEnc :
    see (fun t => (t.rk, t.cursor)) (exec .rkNextEnc (ready 1)) = some (#v[4, 5, 6, 7], 2) ∧
    see (fun t => (t.rk, t.cursor)) (exec .rkNextEnc (ready 10)) = some (#v[40, 41, 42, 43], 11) ∧
    see (fun t => (t.rk, t.cursor, t.errCode)) (exec .rkNextEnc (ready 11)) = some (inputB, 11, .cursor) := by decide

/-- Lines 1, 4 and 7 of section 2.8. -/
theorem test_rkNextDec :
    see (fun t => (t.rk, t.cursor)) (exec .rkNextDec (ready 2)) = some (#v[4, 5, 6, 7], 1) ∧
    see (fun t => (t.rk, t.cursor)) (exec .rkNextDec (ready 11)) = some (#v[40, 41, 42, 43], 10) ∧
    see (fun t => (t.rk, t.cursor, t.errCode)) (exec .rkNextDec (ready 0)) = some (inputB, 0, .cursor) := by decide

/-- Lines 9, 10 and 11 of section 2.8. -/
theorem test_rkLoad :
    see (fun t => (t.rk, t.cursor)) (exec (.rkLoad 10) (ready 10)) = some (#v[40, 41, 42, 43], 10) ∧
    see (fun t => (t.rk, t.errCode)) (exec (.rkLoad 11) (ready 10)) = some (inputB, .rkIndex) := by decide

/-- E_NOKEY comes before E_RKINDEX and E_CURSOR (R299). -/
theorem test_noKey_first :
    see State.errCode (exec (.rkLoad 15) loaded) = some .noKey ∧ see State.errCode (exec .rkNextDec loaded) = some .noKey := by
  decide

/-! ## Round transforms (section 2.9) -/

theorem test_subBytes : see State.block (exec .subBytes loaded) =
    some #v[0x638293c3, 0x1bfc33f5, 0xc4eeacea, 0x4bc12816] := by decide +kernel

theorem test_invSubBytes : see State.block (exec .invSubBytes loaded) =
    some #v[0x52e39466, 0x86edd302, 0x97f962fe, 0x27c9997d] := by decide +kernel

theorem test_shiftRows : see State.block (exec .shiftRows { loaded with block := inputB }) =
    some #v[0x00050a0f, 0x04090e03, 0x080d0207, 0x0c01060b] := by decide +kernel

theorem test_invShiftRows : see State.block (exec .invShiftRows { loaded with block := inputB }) =
    some #v[0x000d0a07, 0x04010e0b, 0x0805020f, 0x0c090603] := by decide +kernel

/-- Four columns of section 2.6. -/
theorem test_mixColumns :
    see State.block (exec .mixColumns { loaded with block := #v[0xdb135345, 0xf20a225c, 0x2d26314c, 0x80000000] }) =
      some #v[0x8e4da1bc, 0x9fdc589d, 0x4d7ebdf8, 0x1b80809b] := by decide +kernel

theorem test_invMixColumns :
    see State.block (exec .invMixColumns { loaded with block := #v[0xdb135345, 0xf20a225c, 0x2d26314c, 0x80000000] }) =
      some #v[0x32a41d55, 0xaec36982, 0xa05050d6, 0x41ecdaf7] := by decide +kernel

theorem test_addRoundKey : see (fun t => (t.block, t.rk)) (exec .addRoundKey loaded) =
    some (#v[0x00102030, 0x40506070, 0x8090a0b0, 0xc0d0e0f0], inputB) := by decide +kernel

/-! ## The block driver (sections 1.1 and 2.10) -/

/-- The known answer for AES-128; CURSOR = 11 and RK untouched (R266). -/
theorem test_encBlock : see (fun t => (t.block, t.cursor, t.rk)) (exec .encBlock expanded) =
    some (#v[0x69c4e0d8, 0x6a7b0430, 0xd8cdb780, 0x70b4c55a], 11, inputB) := by decide +kernel

/-- The last row of section 2.10.2; CURSOR = 0 (R267). -/
theorem test_decBlock : see (fun t => (t.block, t.cursor))
    (exec .decBlock { expanded with block := #v[0x69c4e0d8, 0x6a7b0430, 0xd8cdb780, 0x70b4c55a] }) =
    some (inputA, 0) := by decide +kernel

/-- The first start of round 2 of section 2.10.1. -/
theorem test_encRound : encRound (keyExpansion keyWords 4) #v[0x00102030, 0x40506070, 0x8090a0b0, 0xc0d0e0f0] 1 =
    #v[0x89d810e8, 0x855ace68, 0x2d1843d8, 0xcb128fe4] := by decide +kernel

/-- NOP: only DONE (section 2.11), and a recorded error stays (R265). -/
theorem test_nop : status (exec .nop loaded) = some 0x00000002 ∧
    status (exec .nop { loaded with err := true, errCode := .noKey }) = some 0x00000306 := by decide

/-! ## Errors and status (section 2.11) -/

/-- `sw CMD, 0x00000107`, then the completion: E_OPCODE (R292). -/
theorem test_illegal_word : status (runSteps 2 { loaded with events := [sw 0x008 0x00000107, .coreTurn] }) = some 0x00000106 := by
  decide

theorem test_errors_with_a_key :
    status (exec .encBlock loaded) = some 0x00000306 ∧ status (exec .rkNextDec (ready 0)) = some 0x00A4040E ∧
    status (exec (.rkLoad 11) (ready 0)) = some 0x00A4050E := by decide

/-- E_OPCODE and then E_NOKEY: the most recent wins. -/
theorem test_most_recent_error_wins :
    status (exec .encBlock { loaded with err := true, errCode := .opcode }) = some 0x00000306 := by decide

/-- STATUS write-1-to-clear: 0x2 clears DONE, 0x4 clears ERR and ERRCODE. -/
theorem test_status_write :
    status (exec (.hostWrite 0x004 0x2) { ready 0 with done := true }) = some 0x00A40008 ∧
    status (exec (.hostWrite 0x004 0x4) { loaded with done := true, err := true, errCode := .keyLen }) = some 0x00000002 := by decide

/-- The interrupt line: low at acceptance, high at completion with IE = 1, high at once when IE is set. -/
theorem test_irq :
    see State.irq (exec (.hostWrite 0x008 0x00) { loaded with done := true }) = some false ∧ see State.irq (exec .nop loaded) = some true ∧
    see State.irq (exec .nop State.reset) = some false ∧ see State.irq (exec (.hostWrite 0x000 1) { State.reset with done := true }) = some true := by
  decide

/-- Program 6, first outcome: the completion step comes before the write, which then lands. -/
theorem test_program6_completion_first :
    see (fun t => (t.block, t.statusWord)) (runSteps 3 { expanded with events := [aes 0x30, .coreTurn, sw 0x030 0] }) =
      some (#v[0x00000000, 0x6a7b0430, 0xd8cdb780, 0x70b4c55a], 0x0BA4000A) := by decide +kernel

/-- Program 6, second outcome: the write comes while BUSY, is discarded, and E_BUSY stays after the completion. -/
theorem test_program6_write_first :
    see (fun t => (t.block, t.statusWord)) (runSteps 3 { expanded with events := [aes 0x30, sw 0x030 0, .coreTurn] }) =
      some (#v[0x69c4e0d8, 0x6a7b0430, 0xd8cdb780, 0x70b4c55a], 0x0BA4060E) := by decide +kernel

/-! ## The host port (section 2.12) -/

theorem test_read_cmd_and_reserved :
    ([0x008, 0x05C, 0x0FC, 0x1F0, 0xFFC] : List (BitVec 12)).map (fun off => lastRead (exec (.hostRead off) loaded)) =
      List.replicate 5 (some (some 0)) := by decide

/-- `sw 0x033, 0xAABBCCDD` writes STATE0: the low bits are ignored. -/
theorem test_write_misaligned :
    see State.block (exec (.hostWrite 0x033 0xAABBCCDD) State.reset) = some #v[0xAABBCCDD, 0, 0, 0] ∧
    lastRead (exec (.hostRead 0x031) loaded) = some (some 0x00112233) := by decide

theorem test_write_narrow_registers :
    see State.gfA (exec (.hostWrite 0x050 0x12345657) State.reset) = some 0x57 ∧
    see State.gfR (exec (.hostWrite 0x058 0x99) State.reset) = some 0x00 ∧
    see State.ie (exec (.hostWrite 0x000 0xFFFFFFFF) State.reset) = some true ∧
    see State.keyLen (exec (.hostWrite 0x00C 0x00000110) State.reset) = some 0x10 := by decide

/-- A key write clears the schedule (R45): 0x00A4000A becomes 0x00000002 (section 2.7.5). -/
theorem test_key_write_invalidates :
    see (fun t => (t.statusWord, t.key[7], t.w == clearedSchedule)) (exec (.hostWrite 0x02C 0x55) { ready 0 with done := true }) =
      some (0x00000002, 0x55, true) := by decide +kernel

/-- The EKEY window: the last word of an AES-128 key, the first word past it, and no valid key. -/
theorem test_read_ekey :
    lastRead (exec (.hostRead 0x1AC) (ready 0)) = some (some 43) ∧ lastRead (exec (.hostRead 0x1B0) (ready 0)) = some (some 0) ∧
    lastRead (exec (.hostRead 0x1EC) { ready 0 with nr := 14 }) = some (some 59) ∧
    lastRead (exec (.hostRead 0x104) { ready 0 with keyValid := false }) = some (some 0) := by decide +kernel

/-! ## Message-level ECB (sections 1.3 and 2.13) -/

/-- The AES-128 key as bytes. -/
def keyBytes : List Byte := (List.range 16).map (BitVec.ofNat 8)

/-- The four-byte message of section 2.13. -/
theorem test_ecbEncrypt_four_bytes : ecbEncrypt [0x01, 0x02, 0x03, 0x04] keyBytes =
    .output [0xce, 0x16, 0xdf, 0x0d, 0xd2, 0x21, 0x1f, 0x29, 0xba, 0x60, 0x67, 0xc4, 0xb7, 0xc1, 0x36, 0x14] := by decide +kernel

theorem test_ecb_refusals :
    ecbEncrypt [] keyBytes = .output [] ∧ ecbEncrypt [0x00] (keyBytes.take 15) = .keyLengthError ∧
    ecbDecrypt (List.replicate 20 0x00) keyBytes = .misaligned ∧ ecbDecrypt [] keyBytes = .output [] := by decide +kernel

/-- `wrkey` of a 15-byte key (program 4): KEYLEN = 15 and four key words, the last padded. -/
theorem test_wrkey : wrkey (keyBytes.take 15) =
    [sw 0x00C 15, sw 0x010 0x00010203, sw 0x014 0x04050607, sw 0x018 0x08090a0b, sw 0x01C 0x0c0d0e00] := by decide

/-! ## Witnesses: the hypotheses of the obligations can be met -/

/-- A running command: RK_LOAD 10 accepted, the host about to write and then to wait. -/
def running : State :=
  { ready 5 with latch := 0x00000A15, phase := .busy, events := [sw 0x030 0, .coreTurn] }

/-- For both statements about a reset. -/
theorem test_witness_ResetEventGivesResetValues :
    ({ running with events := [.reset (some (hostReadBits 0x004)), .coreTurn] } : State).events =
      .reset (some (hostReadBits 0x004)) :: [.coreTurn] := rfl

/-- A state with a valid schedule that has the invariant, and steps: an accepted command, a key write, and an error. -/
theorem test_witness_StepKeepsTheInvariant :
    expanded.Inv ∧ (see State.cursor (step { expanded with latch := 0x12, phase := .busy }) = some 11) ∧
    ({ expanded with latch := 0x12, phase := .busy } : State).Inv ∧ ({ loaded with err := true, errCode := .keyLen } : State).Inv := by
  refine ⟨⟨?_, ?_⟩, ?_, ⟨?_, ?_⟩, ?_⟩ <;> decide +kernel

theorem test_witness_AcceptedCommandCompletes :
    running.phase = .busy ∧ (∀ e ∈ running.events, ∀ lost, e ≠ .reset lost) := by
  refine ⟨rfl, ?_⟩
  intro e he lost
  simp only [running, List.mem_cons, List.not_mem_nil, or_false] at he
  rcases he with rfl | rfl <;> exact fun h => by cases h

/-- A read whose ignored data bits are not zero, on top of the events. -/
theorem test_witness_StepRunsTheDecodedInstruction_any_transaction :
    ({ loaded with events := [.transaction 0x0004FFFFFFFF#45] } : State).events = .transaction 0x0004FFFFFFFF#45 :: [] ∧
    decodeTransaction 0x0004FFFFFFFF#45 = .hostRead 0x004 := by decide

theorem test_witness_StepRunsTheDecodedInstruction_transaction :
    (Instr.hostWrite 0x030 0).wellFormed = true ∧ encode (.hostWrite 0x030 0) = .transaction (hostWriteBits 0x030 0) ∧
    running.events = .transaction (hostWriteBits 0x030 0) :: [.coreTurn] := ⟨rfl, rfl, rfl⟩

theorem test_witness_StepRunsTheDecodedInstruction_command :
    (Instr.rkLoad 10).wellFormed = true ∧ encode (.rkLoad 10) = .command { running with events := [] }.latch ∧
    ({ running with events := [] } : State).phase = .busy ∧ ({ running with events := [] } : State).events = [] ∧
    ({ running with events := [.coreTurn] } : State).events = .coreTurn :: [] := by decide

theorem test_witness_StepRunsTheDecodedInstruction_rest :
    loaded.phase = .idle ∧ loaded.events = [] := ⟨rfl, rfl⟩

theorem test_witness_CommandWrittenToCmdRuns :
    (Instr.rkLoad 15).wellFormed = true ∧ encode (.rkLoad 15) = .command 0x00000F15 ∧
    ({ loaded with events := [sw 0x008 0x00000F15, .coreTurn] } : State).events = sw 0x008 0x00000F15 :: .coreTurn :: [] := by
  decide

theorem test_witness_DecodeOfEncodeIsTheInstruction :
    (Instr.rkLoad 15).wellFormed = true ∧ decode (encode (.rkLoad 15)) = .instr (.rkLoad 15) ∧
    (Instr.hostWrite 0xFFF 0xFFFFFFFF).wellFormed = true ∧
    decode (encode (.hostWrite 0xFFF 0xFFFFFFFF)) = .instr (.hostWrite 0xFFF 0xFFFFFFFF) := by decide

theorem test_witness_EncodeOfDecodeIsTheWord :
    decodeCommand 0x00000F15 = .instr (.rkLoad 15) ∧ (hostWriteBits 0x0FC 1).getLsbD 44 = true ∧
    (0x0004FFFFFFFF#45).getLsbD 44 = false := by decide

theorem test_witness_IllegalWordsRecordOpcodeError :
    decodeCommand 0x00000107 = .illegal .unlistedOpcode ∧ decodeCommand 0x00000113 = .illegal .reservedBits ∧
    ({ running with latch := 0x00000107, events := [] } : State).phase = .busy ∧ decodeCommand 0x00000000 = .instr .nop := by decide

theorem test_witness_field_operands :
    (operands 0x57 0x04).gfA = 0x57 ∧ (operands 0x57 0x04).gfB = 0x04 ∧ (operands 0x00 0x00).gfA = 0x00 ∧
    (operands 0x80 0x00).gfA = 0x80 ∧ (operands 0xFF 0x00).gfA = 0xFF ∧ (operands 0x01 0x00).gfA = 0x01 ∧ (operands 0x53 0x00).gfA = 0x53 ∧
    (operands 0x53 0x00).gfA ≠ 0x00 ∧ (operands 0x57 0x00).gfB = 0x00 ∧ (operands 0x57 0x01).gfB = 0x01 ∧
    (operands 0x57 0x02).gfB = 0x02 ∧ (operands 0x57 0x83).gfB = 0x83 := by decide

theorem test_witness_InverseIsTheUniqueFieldInverse : (0x53 : Byte) ≠ 0x00 ∧ mul 0x53 0xca = 0x01 ∧ (0x01 : Byte) ≠ 0x00 := by decide

theorem test_witness_KeyExpandBuildsTheSchedule :
    ({ loaded with keyLen := 16 } : State).keyLen.toNat = 16 ∧ ({ loaded with keyLen := 24 } : State).keyLen.toNat = 24 ∧
    ({ loaded with keyLen := 32 } : State).keyLen.toNat = 32 := by decide

theorem test_witness_KeyExpandRejectsOtherLengths :
    loaded.keyLen.toNat ≠ 16 ∧ loaded.keyLen.toNat ≠ 24 ∧ loaded.keyLen.toNat ≠ 32 ∧ loaded.Inv ∧
    ({ loaded with keyLen := 15 } : State).keyLen.toNat ≠ 16 := by decide +kernel

theorem test_witness_NoScheduleMeansNoKeyError :
    loaded.keyValid = false ∧ Instr.decBlock ∈ [Instr.rkResetFwd, .rkResetBwd, .rkNextEnc, .rkNextDec, .encBlock, .decBlock] ∧
    ∃ n, Instr.rkLoad 15 = .rkLoad n := ⟨rfl, by decide, 15, rfl⟩

/-- The cursor's bounds: no key; both ends with NR = 10 and NR = 14. -/
theorem test_witness_cursor_commands :
    loaded.keyValid = false ∧ (ready 0).keyValid = true ∧ (ready 0).nr.toNat ≤ 14 ∧ (ready 0).cursor.toNat = 0 ∧
    (ready 11).cursor.toNat = (ready 11).nr.toNat + 1 ∧ (ready 10).cursor.toNat ≤ (ready 10).nr.toNat ∧ 0 < (ready 1).cursor.toNat ∧
    ({ ready 15 with nr := 14 } : State).cursor.toNat = 14 + 1 ∧ ({ ready 14 with nr := 14 } : State).cursor.toNat ≤ 14 := by decide

theorem test_witness_RkLoadTakesTheIndexedKey :
    (10 ≤ 15 ∧ 10 ≤ (ready 0).nr.toNat) ∧ (11 ≤ 15 ∧ (ready 0).nr.toNat < 11) ∧ 0 ≤ (ready 0).nr.toNat ∧
    (ready 0).keyValid = true ∧ loaded.keyValid = false := by decide

theorem test_witness_CursorWalksTheSchedule :
    (ready 0).keyValid = true ∧ (ready 0).nr.toNat ≤ 14 ∧ 0 < 11 ∧ 11 ≤ (ready 0).nr.toNat + 1 ∧ (ready 0).cursor.toNat = 0 ∧
    (ready 11).cursor.toNat = (ready 11).nr.toNat + 1 := by decide

theorem test_witness_CursorStepsUndoEachOther :
    (ready 10).keyValid = true ∧ (ready 10).nr.toNat ≤ 14 ∧ (ready 10).cursor.toNat ≤ (ready 10).nr.toNat ∧
    (ready 0).cursor.toNat ≤ (ready 0).nr.toNat := by decide

theorem test_witness_transform_examples :
    loaded.block = #v[0x00112233, 0x44556677, 0x8899aabb, 0xccddeeff] ∧ loaded.rk = #v[0x00010203, 0x04050607, 0x08090a0b, 0x0c0d0e0f] ∧
    ((3 : Fin 4).val = ((3 : Fin 4).val + (0 : Fin 4).val) % 4) ∧ ((2 : Fin 4).val = ((3 : Fin 4).val + (3 : Fin 4).val) % 4) ∧
    ((0 : Fin 4).val = ((3 : Fin 4).val + 4 - (3 : Fin 4).val) % 4) ∧
    State.reset.block = Vector.replicate 4 0x00000000 ∧ State.reset.rk = Vector.replicate 4 0 ∧ State.reset.rk = State.reset.block ∧
    ({ loaded with block := Vector.replicate 4 0x63636363 } : State).block = Vector.replicate 4 0x63636363 := by decide

theorem test_witness_InverseTransformsRestoreTheState :
    (Instr.mixColumns, Instr.invMixColumns) ∈
      [(Instr.subBytes, Instr.invSubBytes), (.shiftRows, .invShiftRows), (.mixColumns, .invMixColumns)] := by decide

theorem test_witness_NopOnlyCompletes :
    loaded.phase = .idle ∧ ({ loaded with events := [aes 0x00000000, .coreTurn] } : State).events = aes 0x00000000 :: .coreTurn :: [] :=
  ⟨rfl, rfl⟩

/-- For ENC_BLOCK and DEC_BLOCK by primitives, and for the round trip. -/
theorem test_witness_block_commands :
    expanded.keyValid = true ∧ 1 ≤ expanded.nr.toNat ∧ expanded.nr.toNat ≤ 14 := by decide

theorem test_witness_KnownAnswers :
    loaded.block = #v[0x00112233, 0x44556677, 0x8899aabb, 0xccddeeff] ∧
    loaded.key = #v[0x00010203, 0x04050607, 0x08090a0b, 0x0c0d0e0f, 0x10111213, 0x14151617, 0x18191a1b, 0x1c1d1e1f] ∧
    ({ loaded with keyLen := 16 } : State).keyLen = 16 ∧ ({ loaded with keyLen := 24 } : State).keyLen = 24 ∧
    ({ loaded with keyLen := 32 } : State).keyLen = 32 := by decide

/-- The clauses of IdleReadReturnsTheRegister at the first and last offset of each register, with the values of the map. -/
theorem test_witness_IdleReadReturnsTheRegister :
    (ready 3).phase = .idle ∧
    ([0x000, 0x004, 0x008, 0x00C, 0x010, 0x02C, 0x030, 0x03C, 0x040, 0x04C, 0x050, 0x054, 0x058] : List (BitVec 12)).map
      (fun off => lastRead (exec (.hostRead off) (ready 3))) =
      ([0x1, 0x03A40008, 0x0, 0x10, 0x00010203, 0x1c1d1e1f, 0x00112233, 0xccddeeff, 0x00010203, 0x0c0d0e0f, 0x0, 0x0, 0x0] : List Word).map
        (fun v => some (some v)) ∧
    ([0x05C, 0x0FC, 0x100, 0x104, 0x1AC, 0x1B0, 0x1EC, 0x1F0, 0xFFC] : List (BitVec 12)).map
      (fun off => lastRead (exec (.hostRead off) (ready 3))) =
      ([0, 0, 0, 1, 43, 0, 0, 0, 0] : List Word).map (fun v => some (some v)) := by decide +kernel

/-- While BUSY the registers that no command writes read exactly. -/
theorem test_witness_BusyReadIsExactOutsideTheFreeRegisters :
    running.phase = .busy ∧
    ([0x000, 0x008, 0x00C, 0x010, 0x02C, 0x050, 0x054, 0x05C, 0x0FC, 0x1F0, 0xFFC] : List (BitVec 12)).map
      (fun off => lastRead (exec (.hostRead off) running)) =
      ([0x1, 0x0, 0x10, 0x00010203, 0x1c1d1e1f, 0x0, 0x0, 0x0, 0x0, 0x0, 0x0] : List Word).map (fun v => some (some v)) := by
  decide +kernel

/-- The clauses of IdleWriteFollowsTheRegister: a write of 0xFFFFFFFF at the first and last offset of each register. -/
theorem test_witness_IdleWriteFollowsTheRegister :
    (ready 3).phase = .idle ∧
    see State.ie (exec (.hostWrite 0x000 0xFFFFFFFF) (ready 3)) = some true ∧
    see State.phase (exec (.hostWrite 0x008 0xFFFFFFFF) (ready 3)) = some .busy ∧
    see State.keyLen (exec (.hostWrite 0x00C 0xFFFFFFFF) (ready 3)) = some 0xFF ∧
    see (fun t => (t.key[0], t.keyValid)) (exec (.hostWrite 0x010 0xFFFFFFFF) (ready 3)) = some (0xFFFFFFFF, false) ∧
    see (fun t => (t.key[7], t.keyValid)) (exec (.hostWrite 0x02C 0xFFFFFFFF) (ready 3)) = some (0xFFFFFFFF, false) ∧
    see (fun t => t.block[0]) (exec (.hostWrite 0x030 0xFFFFFFFF) (ready 3)) = some 0xFFFFFFFF ∧
    see (fun t => t.block[3]) (exec (.hostWrite 0x03C 0xFFFFFFFF) (ready 3)) = some 0xFFFFFFFF ∧
    see (fun t => t.rk[0]) (exec (.hostWrite 0x040 0xFFFFFFFF) (ready 3)) = some 0xFFFFFFFF ∧
    see (fun t => t.rk[3]) (exec (.hostWrite 0x04C 0xFFFFFFFF) (ready 3)) = some 0xFFFFFFFF ∧
    see State.gfA (exec (.hostWrite 0x050 0xFFFFFFFF) (ready 3)) = some 0xFF ∧
    see State.gfB (exec (.hostWrite 0x054 0xFFFFFFFF) (ready 3)) = some 0xFF ∧
    ([0x058, 0x05C, 0x0FC, 0x100, 0x1EC, 0x1F0, 0xFFC] : List (BitVec 12)).all
      (fun off => see id (exec (.hostWrite off 0xFFFFFFFF) (ready 3)) == some (ready 3)) = true := by
  refine ⟨rfl, ?_, ?_, ?_, ?_, ?_, ?_, ?_, ?_, ?_, ?_, ?_, ?_⟩ <;> decide +kernel

/-- A write while BUSY; a command that then succeeds (E_BUSY stays), and one that fails (its own code); a read. -/
theorem test_witness_BusyWriteIsDiscardedAndRecorded :
    running.phase = .busy ∧ (Instr.rkLoad 10).isCommand = true ∧
    see State.errCode (exec (.rkLoad 10) running) = some .noError ∧
    see State.errCode (exec (.rkLoad 10) { running with err := true, errCode := .busy }) = some .busy ∧
    see State.errCode (exec (.rkLoad 11) { running with err := true, errCode := .busy }) = some .rkIndex ∧
    see State.errCode (completeIllegal running) = some .opcode ∧
    see State.errCode (exec (.hostRead 0x050) running) = some .noError := by decide +kernel

theorem test_witness_InterruptLineFollowsDone :
    Instr.nop.isCommand = true ∧ see State.irq (exec .nop running) = some true ∧
    see State.irq (exec (.hostWrite 0x00A 0) loaded) = some false ∧ (0x00A : BitVec 12) &&& 0xFFC = 0x008 ∧
    see State.irq (exec (.hostWrite 0x004 0x2) { loaded with done := true }) = some false ∧ (0x2 : Word).getLsbD 1 = true ∧
    see State.irq (exec (.hostWrite 0x000 0x1) { loaded with done := true }) = some true ∧
    see State.irq (exec (.hostWrite 0x000 0x1) running) = some false ∧
    see State.irq (completeIllegal { running with latch := 0x07 }) = some true ∧
    see State.irq (exec (.hostRead 0x050) loaded) = some false := by decide +kernel

/-- For the rules over all commands: one that fails with the code already recorded, one that fails anew, one that succeeds. -/
theorem test_witness_command_rules :
    Instr.encBlock.isCommand = true ∧ commandError { loaded with err := true, errCode := .noKey } .encBlock = some .noKey ∧
    commandError (ready 11) .rkNextEnc = some .cursor ∧ commandError (ready 0) .rkNextDec = some .cursor ∧
    commandError (ready 0) (.rkLoad 11) = some .rkIndex ∧ commandError loaded .keyExpand = some .keyLen ∧
    commandError running (.rkLoad 10) = none ∧ see (fun t => (t.phase, t.done)) (exec (.rkLoad 10) running) = some (.idle, true) := by
  decide +kernel

/-- Each error code with its source. -/
theorem test_witness_ErrorCodesHaveTheirSources :
    see State.errCode (exec (.hostWrite 0x004 0x4) { loaded with err := true, errCode := .busy }) = some .noError ∧
    see State.errCode (exec .keyExpand loaded) = some .keyLen ∧ see State.errCode (exec .encBlock loaded) = some .noKey ∧
    see State.errCode (exec .rkNextEnc (ready 11)) = some .cursor ∧ see State.errCode (exec .rkNextDec (ready 0)) = some .cursor ∧
    see State.errCode (exec (.rkLoad 11) (ready 0)) = some .rkIndex ∧ see State.errCode (exec (.hostWrite 0xFFC 0) running) = some .busy := by
  decide +kernel

/-- Each register of the host's changed by a write of it, and the STATUS flags by their writers. -/
theorem test_witness_RegistersHaveTheirWriters_host :
    see State.ie (exec (.hostWrite 0x003 0) loaded) = some false ∧ see State.keyLen (exec (.hostWrite 0x00C 16) loaded) = some 16 ∧
    see (fun t => t.key[7]) (exec (.hostWrite 0x02C 9) loaded) = some 9 ∧ see State.gfA (exec (.hostWrite 0x050 9) loaded) = some 9 ∧
    see State.gfB (exec (.hostWrite 0x054 9) loaded) = some 9 ∧ see State.done (exec .nop loaded) = some true ∧
    see State.done (exec (.hostWrite 0x008 0) { loaded with done := true }) = some false ∧
    see State.done (exec (.hostWrite 0x004 2) { loaded with done := true }) = some false ∧
    see State.err (exec .encBlock loaded) = some true ∧ see State.err (exec (.hostWrite 0x000 0) running) = some true ∧
    see State.err (exec (.hostWrite 0x004 4) { loaded with err := true, errCode := .busy }) = some false ∧
    (running.phase = .busy ∧ see State.phase (exec (.rkLoad 10) running) = some .idle) := by
  refine ⟨?_, ?_, ?_, ?_, ?_, ?_, ?_, ?_, ?_, ?_, ?_, ?_⟩ <;> decide +kernel

/-- Each register of a command's changed by a writer of it. -/
theorem test_witness_RegistersHaveTheirWriters :
    see State.gfR (exec .gfSbox loaded) = some 0x63 ∧ see State.keyValid (exec .keyExpand { loaded with keyLen := 16 }) = some true ∧
    see State.keyValid (exec (.hostWrite 0x00C 16) (ready 0)) = some false ∧ see State.cursor (exec .encBlock (ready 0)) = some 11 ∧
    see State.rk (exec (.rkLoad 0) (ready 0)) = some #v[0, 1, 2, 3] ∧ see (fun t => t.rk[3]) (exec (.hostWrite 0x04C 9) loaded) = some 9 ∧
    see (fun t => t.block[0]) (exec .addRoundKey loaded) = some 0x00102030 ∧ see (fun t => t.block[3]) (exec (.hostWrite 0x03C 9) loaded) = some 9 ∧
    see State.latch (exec (.hostWrite 0x008 9) loaded) = some 9 := by
  refine ⟨?_, ?_, ?_, ?_, ?_, ?_, ?_, ?_, ?_⟩ <;> decide +kernel

/-- A legal and an illegal key length; a message with a partial last chunk. -/
theorem test_witness_Ecb :
    validKeyLen keyBytes.length = true ∧ validKeyLen (keyBytes.take 15).length = false ∧ 1 < (([0x01] : List Byte) ++ keyBytes).length ∧
    0 < (([0x01, 0x02] : List Byte).length + 15) / 16 ∧ ([0x01, 0x02] : List Byte).length % 16 ≠ 0 := by decide

theorem test_witness_KeyProcedureExpandsTheKey :
    loaded.phase = .idle ∧ ({ loaded with events := keyScript keyBytes 2 ++ [clr] } : State).events = keyScript keyBytes 2 ++ [clr] :=
  ⟨rfl, rfl⟩

theorem test_witness_ChunkProcedureReturnsTheBlock :
    expanded.phase = .idle ∧ expanded.keyValid = true ∧ expanded.nr.toNat ≤ 14 ∧
    ({ expanded with events := chunkScript 0x00000030 keyBytes 1 } : State).events = chunkScript 0x00000030 keyBytes 1 ++ [] ∧
    (encryptBlock expanded.w expanded.nr.toNat (blockOfBytes (bytesOfBlock inputA))).1 =
      #v[0x69c4e0d8, 0x6a7b0430, 0xd8cdb780, 0x70b4c55a] :=
  ⟨rfl, rfl, by decide, by rw [List.append_nil], by decide +kernel⟩

/-- A message of two chunks: one failed poll in the first pass, none in the second, and two in the key's wait. -/
theorem test_witness_EcbProcedureReturnsTheOutput :
    loaded.phase = .idle ∧
    ({ loaded with events := keyScript keyBytes 2 ++ messageScript 0x00000030 (0x01 :: keyBytes) (1 - ·) } : State).events =
      keyScript keyBytes 2 ++ messageScript 0x00000030 (0x01 :: keyBytes) (1 - ·) ∧
    (∃ out, ecbEncrypt (0x01 :: keyBytes) keyBytes = .output out) ∧ ∃ out, ecbDecrypt keyBytes keyBytes = .output out :=
  ⟨rfl, rfl, ⟨_, if_pos rfl⟩, ⟨_, by
    unfold ecbDecrypt
    rw [if_pos (show validKeyLen keyBytes.length = true from rfl), if_pos (show keyBytes.length % 16 = 0 from rfl)]⟩⟩

/-- The passes of a message wait on their own (R331): four writes, the command, the polls, the turn, the poll that ends the
wait, and four reads. -/
theorem test_messageScript_unequal_waits :
    (messageScript 0x00000030 (0x01 :: keyBytes) (1 - ·)).length = (4 + 1 + 1 + 2 + 4) + (4 + 1 + 0 + 2 + 4) ∧
    readsBefore (1 - ·) 2 = (1 + 1 + 4) + (0 + 1 + 4) := by decide

end Sys2Proof.Tests
end

namespace Sys2Proof.Machine

/-! ## What an instruction can do

`Effect` says once, for every instruction, which next states `exec` can answer; the invariants and the frames below are case
analyses over it. -/

variable {s t : State} {i : Instr}

/-- `p` is a cursor in 0..NR+1 when the cursor of the state is (rule R40). -/
def State.CursorInRange (s : State) (p : BitVec 4) : Prop :=
  s.cursor.toNat ≤ s.nr.toNat + 1 → p.toNat ≤ s.nr.toNat + 1

/-- What a command can do (rules R34, R298 and R299): fail with the first error that applies, or complete with its own
effect. -/
inductive CommandEffect (s : State) : Instr → State → Prop where
  | failed {i : Instr} {code : ErrCode} (hcode : commandError s i = some code) : CommandEffect s i (s.raiseError code)
  | nop : CommandEffect s .nop s.complete
  | field {i : Instr} (v : Byte) (hi : i ∈ [Instr.gfBittest, .gfXtime, .gfMul, .gfInv, .gfSbox, .gfInvsbox]) :
    CommandEffect s i (s.finishField v)
  | transform {i : Instr} (b : Block)
    (hi : i ∈ [Instr.subBytes, .invSubBytes, .shiftRows, .invShiftRows, .mixColumns, .invMixColumns, .addRoundKey]) :
    CommandEffect s i (s.finishBlock b)
  | keyExpand (hlen : validKeyLen s.keyLen.toNat = true) :
    CommandEffect s .keyExpand (s.installSchedule (s.keyLen.toNat / 4)).complete
  | resetCursor {i : Instr} {p : BitVec 4} (hi : i ∈ [Instr.rkResetFwd, .rkResetBwd]) (hv : s.keyValid = true)
    (hp : s.CursorInRange p) : CommandEffect s i (s.finishCursor p)
  | nextKey {i : Instr} {n : Nat} {p : BitVec 4} (hi : i ∈ [Instr.rkNextEnc, .rkNextDec]) (hv : s.keyValid = true)
    (hp : s.CursorInRange p) : CommandEffect s i ((s.loadRoundKey n).finishCursor p)
  | loadKey (n : Nat) : CommandEffect s (.rkLoad n) (s.loadRoundKey n).complete
  | cipher {i : Instr} {out : Block × Nat} (hi : i ∈ [Instr.encBlock, .decBlock]) (hv : s.keyValid = true)
    (hp : s.CursorInRange (BitVec.ofNat 4 out.2)) : CommandEffect s i (s.finishCipher out)

/-- What an instruction can do: a command its effect, a read nothing but give the host a value (rule R85), a write while BUSY
nothing but be recorded (rule R297), a write while idle what the register's rule says (rule R86). -/
inductive Effect (s : State) : Instr → State → Prop where
  | command {i : Instr} {t : State} (hc : i.isCommand = true) (he : CommandEffect s i t) : Effect s i t
  | read (off : BitVec 12) (v : Word) (n : Nat) : Effect s (.hostRead off) { s with reads := s.reads ++ [v], draws := n }
  | busyWrite (off : BitVec 12) (v : Word) (hp : s.phase = .busy) : Effect s (.hostWrite off v) s.recordBusyWrite
  | idleWrite (off : BitVec 12) (v : Word) (hp : s.phase = .idle) :
    Effect s (.hostWrite off v) (s.writeReg v (regAt off))

/-! ### The cursor moves stay in range (rules R201 to R204, R260 and R261) -/

theorem cursorInRange_zero : s.CursorInRange 0 := fun _ => Nat.zero_le _

theorem cursorInRange_nr_succ : s.CursorInRange (s.nr + 1) := by
  intro _
  simpa using Nat.mod_le (s.nr.toNat + 1) 16

theorem cursorInRange_cursor_succ (hne : s.cursor.toNat ≠ s.nr.toNat + 1) : s.CursorInRange (s.cursor + 1) := by
  intro hcur
  have hmod : (s.cursor + 1).toNat ≤ s.cursor.toNat + 1 := by simpa using Nat.mod_le (s.cursor.toNat + 1) 16
  omega

theorem cursorInRange_cursor_pred (hne : s.cursor ≠ 0) : s.CursorInRange (s.cursor - 1) := by
  intro hcur
  bv_omega

/-! ### Every instruction has its effect -/

/-- A command under the check of rule R294: without a schedule it fails with E_NOKEY, with one the body decides. -/
theorem withSchedule_effect {body : Result}
    (hnoKey : s.keyValid = false → commandError s i = some .noKey)
    (hbody : s.keyValid = true → ∃ t, body = .next t ∧ CommandEffect s i t) :
    ∃ t, s.withSchedule body = .next t ∧ CommandEffect s i t := by
  cases hk : s.keyValid with
  | false => exact ⟨_, withSchedule_of_noKey s body hk, .failed (hnoKey hk)⟩
  | true => rw [withSchedule_of_valid s body hk]; exact hbody hk

theorem execKeyExpand_effect (s : State) : ∃ t, execKeyExpand s = .next t ∧ CommandEffect s .keyExpand t := by
  by_cases hlen : validKeyLen s.keyLen.toNat = true
  · exact ⟨_, if_pos hlen, .keyExpand hlen⟩
  · refine ⟨_, if_neg hlen, .failed ?_⟩
    simpa [commandError, validKeyLen, or_assoc] using hlen

theorem execRkNextEnc_effect (s : State) : ∃ t, execRkNextEnc s = .next t ∧ CommandEffect s .rkNextEnc t := by
  refine withSchedule_effect (fun hk => by simp [commandError, hk]) fun hk => ?_
  by_cases hp : s.cursor.toNat = s.nr.toNat + 1
  · exact ⟨_, if_pos hp, .failed (by simp [commandError, hk, hp])⟩
  · exact ⟨_, if_neg hp, .nextKey (by simp) hk (cursorInRange_cursor_succ hp)⟩

theorem execRkNextDec_effect (s : State) : ∃ t, execRkNextDec s = .next t ∧ CommandEffect s .rkNextDec t := by
  refine withSchedule_effect (fun hk => by simp [commandError, hk]) fun hk => ?_
  by_cases hp : s.cursor = 0
  · exact ⟨_, if_pos hp, .failed (by simp [commandError, hk, hp])⟩
  · exact ⟨_, if_neg hp, .nextKey (by simp) hk (cursorInRange_cursor_pred hp)⟩

theorem execRkLoad_effect (n : Nat) (s : State) : ∃ t, execRkLoad n s = .next t ∧ CommandEffect s (.rkLoad n) t := by
  refine withSchedule_effect (fun hk => by simp [commandError, hk]) fun hk => ?_
  by_cases hn : s.nr.toNat < n
  · exact ⟨_, if_pos hn, .failed (by simp [commandError, hk, hn])⟩
  · exact ⟨_, if_neg hn, .loadKey n⟩

/-- Every command answers a next state, by one of its effects. -/
theorem exec_commandEffect (s : State) (hc : i.isCommand = true) : ∃ t, exec i s = .next t ∧ CommandEffect s i t := by
  cases i with
  | nop => exact ⟨_, rfl, .nop⟩
  | gfBittest | gfXtime | gfMul | gfInv | gfSbox | gfInvsbox => exact ⟨_, rfl, .field _ (by simp)⟩
  | keyExpand => exact execKeyExpand_effect s
  | rkResetFwd =>
    exact withSchedule_effect (fun hk => by simp [commandError, hk])
      fun hv => ⟨_, rfl, .resetCursor (by simp) hv cursorInRange_zero⟩
  | rkResetBwd =>
    exact withSchedule_effect (fun hk => by simp [commandError, hk])
      fun hv => ⟨_, rfl, .resetCursor (by simp) hv cursorInRange_nr_succ⟩
  | rkNextEnc => exact execRkNextEnc_effect s
  | rkNextDec => exact execRkNextDec_effect s
  | rkLoad n => exact execRkLoad_effect n s
  | subBytes | invSubBytes | shiftRows | invShiftRows | mixColumns | invMixColumns | addRoundKey =>
    exact ⟨_, rfl, .transform _ (by simp)⟩
  | encBlock =>
    refine withSchedule_effect (fun hk => by simp [commandError, hk]) fun hv => ⟨_, rfl, .cipher (by simp) hv ?_⟩
    exact fun _ => by simpa [encryptBlock] using Nat.mod_le (s.nr.toNat + 1) 16
  | decBlock =>
    exact withSchedule_effect (fun hk => by simp [commandError, hk])
      fun hv => ⟨_, rfl, .cipher (by simp) hv cursorInRange_zero⟩
  | hostRead off => cases hc
  | hostWrite off v => cases hc

/-- Every instruction answers a next state, by one of its effects. -/
theorem exec_effect (i : Instr) (s : State) : ∃ t, exec i s = .next t ∧ Effect s i t := by
  cases hc : i.isCommand with
  | true =>
    obtain ⟨t, ht, he⟩ := exec_commandEffect s hc
    exact ⟨t, ht, .command hc he⟩
  | false =>
    cases i with
    | hostRead off =>
      obtain ⟨v, n, hframe⟩ := readPort_frame s (regAt off)
      exact ⟨_, congrArg Host.Outcome.next hframe, .read off v n⟩
    | hostWrite off v =>
      rcases phase_cases s with hp | hp
      · exact ⟨_, congrArg Host.Outcome.next (writePort_of_idle s v _ hp), .idleWrite off v hp⟩
      · exact ⟨_, congrArg Host.Outcome.next (writePort_of_busy s v _ hp), .busyWrite off v hp⟩
    | _ => cases hc

/-- The next state that an instruction answers comes from one of its effects. -/
theorem effect_of_exec (h : exec i s = .next t) : Effect s i t := by
  obtain ⟨u, hu, he⟩ := exec_effect i s
  rw [h] at hu
  cases hu
  exact he

/-- The same for a command. -/
theorem commandEffect_of_exec (hc : i.isCommand = true) (h : exec i s = .next t) : CommandEffect s i t := by
  cases effect_of_exec h with
  | command _ he => exact he
  | read | busyWrite | idleWrite => cases hc

/-! ### What every command does and leaves (rules R34, R35, R56 and R298) -/

theorem CommandEffect.phase (he : CommandEffect s i t) : t.phase = .idle := by cases he <;> rfl

theorem CommandEffect.done (he : CommandEffect s i t) : t.done = true := by cases he <;> rfl

/-- No command writes CTRL, LATCH, KEYLEN, KEY, GF_A or GF_B, or moves the host. -/
theorem CommandEffect.frame (he : CommandEffect s i t) :
    t = { s with phase := t.phase, done := t.done, err := t.err, errCode := t.errCode, keyValid := t.keyValid, nk := t.nk,
                 nr := t.nr, cursor := t.cursor, block := t.block, rk := t.rk, gfR := t.gfR, w := t.w } := by
  cases he <;> rfl

/-- A command leaves ERR and ERRCODE, or records the first error that applies. -/
theorem CommandEffect.errors (he : CommandEffect s i t) :
    (t.err = s.err ∧ t.errCode = s.errCode) ∨
      ∃ code, commandError s i = some code ∧ t.err = true ∧ t.errCode = code := by
  cases he with
  | failed hcode => exact .inr ⟨_, hcode, rfl, rfl⟩
  | _ => exact .inl ⟨rfl, rfl⟩

/-- Settles O48: every effect of a command is a completion or a recorded error, and both end idle with DONE = 1. -/
theorem everyCommandEndsIdleWithDone : Obligations.EveryCommandEndsIdleWithDone := by
  unfold Obligations.EveryCommandEndsIdleWithDone
  intro i s t hc h
  have he := commandEffect_of_exec hc h
  exact ⟨he.phase, he.done, he.frame⟩

end Sys2Proof.Machine

/-! ## The invariant of the schedule and of STATUS -/

namespace Sys2Proof.Machine

variable {s t : State} {i : Instr}

/-! ### The schedule's half (rules R37, R39, R40, R45 and R50) -/

/-- A cursor move within 0..NR+1 keeps the schedule's truth. -/
theorem State.ScheduleInv.withCursor (hs : s.ScheduleInv) (hv : s.keyValid = true) {p : BitVec 4} (hp : s.CursorInRange p) :
    ({ s with cursor := p } : State).ScheduleInv := by
  simp only [State.ScheduleInv, hv, if_true] at hs ⊢
  obtain ⟨hlen, hnk, hnr, hcur, hw⟩ := hs
  exact ⟨hlen, hnk, hnr, hp hcur, hw⟩

/-- Invalidation clears the schedule's fields, whatever they held (rule R45). -/
theorem invalidate_scheduleInv (s : State) : s.invalidate.ScheduleInv := ⟨rfl, rfl, rfl, rfl⟩

theorem validKeyLen_cases {len : Nat} (h : validKeyLen len = true) : len = 16 ∨ len = 24 ∨ len = 32 := by
  simpa [validKeyLen, or_assoc] using h

/-- KEY_EXPAND installs the expanded key and its numbers (rule R200). -/
theorem installSchedule_scheduleInv (hlen : validKeyLen s.keyLen.toNat = true) :
    (s.installSchedule (s.keyLen.toNat / 4)).ScheduleInv := by
  have hnk : (BitVec.ofNat 4 (s.keyLen.toNat / 4)).toNat = s.keyLen.toNat / 4 := by
    rcases validKeyLen_cases hlen with h | h | h <;> simp [h]
  have hnr : (BitVec.ofNat 4 (s.keyLen.toNat / 4 + 6)).toNat = s.keyLen.toNat / 4 + 6 := by
    rcases validKeyLen_cases hlen with h | h | h <;> simp [h]
  refine ⟨hlen, hnk, hnr.trans ?_, Nat.zero_le _, ?_⟩
  · exact congrArg (· + 6) hnk.symm
  · exact congrArg (keyExpansion s.key) hnk.symm

theorem CommandEffect.scheduleInv (he : CommandEffect s i t) (hs : s.ScheduleInv) : t.ScheduleInv := by
  cases he with
  | failed | nop | field | transform | loadKey => exact hs
  | keyExpand hlen => exact installSchedule_scheduleInv hlen
  | resetCursor _ hv hp | nextKey _ hv hp | cipher _ hv hp => exact hs.withCursor hv hp

/-- A write while idle leaves the schedule's fields, or invalidates them (rule R86). -/
theorem writeReg_scheduleInv (v : Word) (r : Reg) (hs : s.ScheduleInv) : (s.writeReg v r).ScheduleInv := by
  cases r with
  | keyLen | key m => exact invalidate_scheduleInv _
  | _ => exact hs

theorem Effect.scheduleInv (e : Effect s i t) (hs : s.ScheduleInv) : t.ScheduleInv := by
  cases e with
  | command _ he => exact he.scheduleInv hs
  | read | busyWrite => exact hs
  | idleWrite off v => exact writeReg_scheduleInv v _ hs

/-! ### STATUS's half (rules R35, R36, R38 and R56) -/

/-- "No error" is not a code that a check fails with (rule R291). -/
theorem commandError_ne_noError (s : State) (i : Instr) : commandError s i ≠ some .noError := by
  cases i with
  | keyExpand | rkResetFwd | rkResetBwd | rkNextEnc | rkNextDec | rkLoad n | encBlock | decBlock =>
    simp only [commandError]
    split_ifs <;> simp
  | _ => simp [commandError]

theorem raiseError_statusInv {code : ErrCode} (hcode : code ≠ .noError) : (s.raiseError code).StatusInv :=
  ⟨by simp, by simp [hcode]⟩

theorem CommandEffect.statusInv (he : CommandEffect s i t) (hs : s.StatusInv) : t.StatusInv := by
  refine ⟨fun hbusy => absurd he.phase (by simp [hbusy]), ?_⟩
  rcases he.errors with ⟨herr, hcode⟩ | ⟨code, hfail, herr, hcode⟩
  · rw [herr, hcode]; exact hs.2
  · have hne : code ≠ .noError := fun h => commandError_ne_noError s i (h ▸ hfail)
    simp [herr, hcode, hne]

/-- A write while idle leaves BUSY at 0 or, as an acceptance, clears DONE; and it clears ERR and ERRCODE together. -/
theorem writeReg_statusInv (v : Word) (r : Reg) (hp : s.phase = .idle) (hs : s.StatusInv) : (s.writeReg v r).StatusInv := by
  cases r with
  | cmd => exact ⟨fun _ => rfl, hs.2⟩
  | status =>
    refine ⟨fun hbusy => absurd (hp.symm.trans hbusy) (by decide), ?_⟩
    cases hv : v.getLsbD 2 with
    | true => simp only [State.writeReg, State.writeStatus, hv, if_true]
    | false => simpa only [State.writeReg, State.writeStatus, hv, Bool.false_eq_true, if_false] using hs.2
  | _ => exact hs

theorem Effect.statusInv (e : Effect s i t) (hs : s.StatusInv) : t.StatusInv := by
  cases e with
  | command _ he => exact he.statusInv hs
  | read => exact hs
  | busyWrite _ _ hp => exact ⟨hs.1, by simp⟩
  | idleWrite off v hp => exact writeReg_statusInv v _ hp hs

theorem Effect.inv (e : Effect s i t) (hs : s.Inv) : t.Inv := ⟨e.scheduleInv hs.1, e.statusInv hs.2⟩

/-- A reset gives the core the values of rule R320, which have the invariant. -/
theorem takeReset_inv (s : State) : s.takeReset.Inv :=
  ⟨⟨rfl, rfl, rfl, rfl⟩, fun _ => rfl, fun _ => rfl, fun _ => rfl⟩

/-- Settles O4: each move of a step keeps the invariant: an instruction by its effect, an illegal word as a failed command,
a reset by its values, and the rest because it changes nothing but the events. -/
theorem stepKeepsTheInvariant : Obligations.StepKeepsTheInvariant := by
  unfold Obligations.StepKeepsTheInvariant
  intro s t hs hstep
  have hpop : s.popEvent.Inv := hs
  rcases step_cases s with ⟨i, -, h⟩ | ⟨-, h⟩ | ⟨-, h⟩ | ⟨-, h⟩ <;> rw [h] at hstep
  · exact (effect_of_exec hstep).inv hpop
  · cases hstep; exact ⟨hpop.1, raiseError_statusInv (by decide)⟩
  · cases hstep; exact takeReset_inv _
  · cases hstep; exact hpop

end Sys2Proof.Machine

/-! ## An accepted command completes (rules R34 and R331) -/

namespace Sys2Proof.Machine

variable {s t : State} {i : Instr}

/-- Every row of rule R115 is a command. -/
theorem isCommand_build {row : CommandRow} (hrow : row ∈ commandTable) (v : Word) : (row.build v).isCommand = true := by
  have hall : ∀ row ∈ commandTable, ∀ v, (row.build v).isCommand = true := by
    simp [commandTable, rowC0, rowC1, Instr.isCommand]
  exact hall row hrow v

/-- A command word decodes to a command (rule R116). -/
theorem isCommand_of_decodeCommand {v : Word} (h : decodeCommand v = .instr i) : i.isCommand = true := by
  unfold decodeCommand at h
  split at h
  case h_1 row hfind => cases h; exact isCommand_build (List.mem_of_find?_eq_some hfind) v
  case h_2 => cases h

/-- A transaction is not a command (rules R110 and R111). -/
theorem isCommand_decodeTransaction (b : Transaction) : (decodeTransaction b).isCommand = false := by
  unfold decodeTransaction
  split <;> rfl

/-- The turn of a busy core completes the latched word, be it a command or illegal. -/
theorem step_of_coreTurn (hp : s.phase = .busy) (hev : s.events = [] ∨ ∃ rest, s.events = .coreTurn :: rest) :
    ∃ t, step s = .next t ∧ t.phase = .idle ∧ t.done = true ∧ t.latch = s.latch := by
  cases hd : decodeCommand s.latch with
  | instr i =>
    obtain ⟨t, ht, he⟩ := exec_commandEffect s.popEvent (isCommand_of_decodeCommand hd)
    have hturn : s.turn = .run i := (turn_of_coreTurn s hev).trans (coreMove_of_instr s hp hd)
    exact ⟨t, by simp [step, hturn, ht], he.phase, he.done, (congrArg State.latch he.frame :)⟩
  | illegal why =>
    have hturn : s.turn = .illegal := (turn_of_coreTurn s hev).trans (coreMove_of_illegal s hp hd)
    exact ⟨s.popEvent.raiseError .opcode, by simp [step, hturn, completeIllegal], rfl, rfl, rfl⟩

/-- A transaction while BUSY neither ends nor replaces the running command (rules R85 and R297). -/
theorem step_of_busyTransaction (hp : s.phase = .busy) {b : Transaction} {rest : List Event}
    (hev : s.events = .transaction b :: rest) :
    ∃ t, step s = .next t ∧ t.phase = .busy ∧ t.latch = s.latch ∧ t.events = rest := by
  obtain ⟨t, ht, e⟩ := exec_effect (decodeTransaction b) s.popEvent
  have hrest : s.popEvent.events = rest := by simp [State.popEvent, hev]
  refine ⟨t, by simp [step, turn_of_transaction s hev, ht], ?_⟩
  generalize hi : decodeTransaction b = i at e
  cases e with
  | command hc => exact absurd hc (by simp [← hi, isCommand_decodeTransaction])
  | read | busyWrite => exact ⟨hp, rfl, hrest⟩
  | idleWrite _ _ hidle => exact absurd (hp.symm.trans hidle) (by decide)

theorem runSteps_succ_of_step (h : step s = .next t) (k : Nat) : runSteps (k + 1) s = runSteps k t := by
  simp [runSteps, h]

/-- When the turn is the busy core's, one step is enough. -/
theorem runSteps_one_completes (n : Nat) (hp : s.phase = .busy)
    (hev : s.events = [] ∨ ∃ rest, s.events = .coreTurn :: rest) :
    ∃ k t, k ≤ n + 1 ∧ runSteps k s = .next t ∧ t.phase = .idle ∧ t.done = true ∧ t.latch = s.latch := by
  obtain ⟨t, ht, hdone⟩ := step_of_coreTurn hp hev
  exact ⟨1, t, Nat.le_add_left 1 n, runSteps_succ_of_step ht 0, hdone⟩

/-- A busy core completes by the end of its events, by induction on them: its own turn completes the command, and a
transaction leaves it running with one event less. -/
theorem runSteps_completes (events : List Event) : ∀ s : State, s.events = events → s.phase = .busy →
    (∀ e ∈ events, ∀ lost, e ≠ .reset lost) →
    ∃ k t, k ≤ events.length + 1 ∧ runSteps k s = .next t ∧ t.phase = .idle ∧ t.done = true ∧ t.latch = s.latch := by
  induction events with
  | nil => exact fun _ hev hp _ => runSteps_one_completes 0 hp (.inl hev)
  | cons e rest ih =>
    intro s hev hp hreset
    cases e with
    | coreTurn => exact runSteps_one_completes _ hp (.inr ⟨rest, hev⟩)
    | reset lost => exact absurd rfl (hreset _ List.mem_cons_self lost)
    | transaction b =>
      obtain ⟨t, ht, hbusy, hlatch, hrest⟩ := step_of_busyTransaction hp hev
      obtain ⟨k, u, hk, hrun, hidle, hdone, hu⟩ :=
        ih t hrest hbusy fun e he => hreset e (List.mem_cons_of_mem _ he)
      exact ⟨k + 1, u, Nat.succ_le_succ hk, (runSteps_succ_of_step ht k).trans hrun, hidle, hdone, hu.trans hlatch⟩

/-- Settles O6, by the induction on the events still to come. -/
theorem acceptedCommandCompletes : Obligations.AcceptedCommandCompletes := by
  unfold Obligations.AcceptedCommandCompletes
  exact fun s hp hreset => runSteps_completes s.events s rfl hp hreset

end Sys2Proof.Machine

/-! ## A read while BUSY (rule R56) -/

namespace Sys2Proof.Machine

variable {s : State}

/-- The register at an offset whose aligned value is known (rules R31 and R84). -/
theorem regAt_of_offset {off : BitVec 12} {a : Nat} (h : (off &&& 0xFFC).toNat = a) : regAt off = regOf a :=
  congrArg regOf h

theorem toNat_bits (code : ErrCode) : code.bits.toNat = codeNumber code := by cases code <;> rfl

/-- A field of STATUS outside the free bits reads exactly while BUSY. -/
theorem extractLsb'_busyStatusWord (s : State) (draw : Word) {lo len : Nat} (h : lo + len ≤ 32)
    (hfree : ∀ k < len, ¬ (lo + k = 3 ∨ (16 ≤ lo + k ∧ lo + k < 28))) :
    (s.busyStatusWord draw).extractLsb' lo len = s.statusWord.extractLsb' lo len := by
  refine BitVec.eq_of_getLsbD_eq fun k hk => ?_
  rw [BitVec.getLsbD_extractLsb', BitVec.getLsbD_extractLsb', getLsbD_busyStatusWord s draw (by omega), if_neg (hfree k hk)]

/-- A field of STATUS whose bits are all reserved is 0 (rule R33). -/
theorem extractLsb'_statusWord_reserved (s : State) {lo : Nat} (h : lo = 4 ∨ lo = 12 ∨ lo = 28) :
    s.statusWord.extractLsb' lo 4 = 0 := by
  refine BitVec.eq_of_getLsbD_eq fun k hk => ?_
  rw [BitVec.getLsbD_extractLsb', getLsbD_statusWord]
  rcases h with rfl | rfl | rfl <;> interval_cases k <;> simp

/-- The ERRCODE field of STATUS (rules R33 and R38). -/
theorem extractLsb'_statusWord_errCode (s : State) : s.statusWord.extractLsb' 8 4 = s.errCode.bits := by
  refine BitVec.eq_of_getLsbD_eq fun k hk => ?_
  rw [BitVec.getLsbD_extractLsb', getLsbD_statusWord]
  interval_cases k <;> simp

theorem busyFlag_of_busy (hp : s.phase = .busy) : s.busyFlag = true := by simp [State.busyFlag, hp]

/-- The exact bits of a STATUS read while BUSY (rule R56). -/
theorem busyStatusWord_exact (hp : s.phase = .busy) (draw : Word) :
    (s.busyStatusWord draw).getLsbD 0 = true ∧ (s.busyStatusWord draw).getLsbD 1 = s.done ∧
    (s.busyStatusWord draw).getLsbD 2 = s.err ∧ (s.busyStatusWord draw).extractLsb' 4 4 = 0 ∧
    ((s.busyStatusWord draw).extractLsb' 8 4).toNat = codeNumber s.errCode ∧
    (s.busyStatusWord draw).extractLsb' 12 4 = 0 ∧ (s.busyStatusWord draw).extractLsb' 28 4 = 0 := by
  have hreserved {lo : Nat} (h : lo = 4 ∨ lo = 12 ∨ lo = 28) : (s.busyStatusWord draw).extractLsb' lo 4 = 0 := by
    rw [extractLsb'_busyStatusWord s draw (by omega) (by omega), extractLsb'_statusWord_reserved s h]
  refine ⟨?_, ?_, ?_, hreserved (by decide), ?_, hreserved (by decide), hreserved (by decide)⟩
  · rw [getLsbD_busyStatusWord s draw (by decide), getLsbD_statusWord]; exact busyFlag_of_busy hp
  · rw [getLsbD_busyStatusWord s draw (by decide), getLsbD_statusWord]; rfl
  · rw [getLsbD_busyStatusWord s draw (by decide), getLsbD_statusWord]; rfl
  · rw [extractLsb'_busyStatusWord s draw (by decide) (by decide), extractLsb'_statusWord_errCode, toNat_bits]

theorem toNat_zext32 (b : Byte) : (zext32 b).toNat = b.toNat :=
  BitVec.toNat_setWidth_of_le (by decide)

/-- Settles O44: the register at the offset is the one of rule R31, and its value while BUSY is its own wherever rule R56
leaves nothing free. -/
theorem busyReadIsExactOutsideTheFreeRegisters : Obligations.BusyReadIsExactOutsideTheFreeRegisters := by
  unfold Obligations.BusyReadIsExactOutsideTheFreeRegisters
  intro s off hp
  refine ⟨s.busyRegValue (Config.busyRead s.draws) (regAt off),
    if (regAt off).unsettled then s.draws + 1 else s.draws, ?_⟩
  refine ⟨congrArg Host.Outcome.next (readPort_of_busy s _ hp), ?_, ?_, ?_, ?_, ?_, ?_, ?_, ?_⟩ <;> intro h
  · rw [regAt_of_offset h]
    change (BitVec.ofBool s.ie).setWidth 32 = _
    cases s.ie <;> rfl
  · rw [regAt_of_offset h]; exact busyStatusWord_exact hp _
  · rw [regAt_of_offset h]; rfl
  · rw [regAt_of_offset h]; exact toNat_zext32 s.keyLen
  · intro ha; rw [regAt_of_offset ha, regOf_key]; rfl
  · rw [regAt_of_offset h]; exact toNat_zext32 s.gfA
  · rw [regAt_of_offset h]; exact toNat_zext32 s.gfB
  · rw [regAt_of_offset rfl, regOf_reserved h]; rfl

end Sys2Proof.Machine

/-! ## Each register has its writers (10_state.md, sections 3 to 10) -/

namespace Sys2Proof.Machine

variable {s t : State} {i : Instr} {v : Word} {r : Reg}

/-! ### Writes while idle, and the offsets they stand at -/

/-- The instruction is a host write of register `r` while BUSY = 0 (rule R86). -/
def State.IdleWriteTo (s : State) (i : Instr) (r : Reg) : Prop :=
  s.phase = .idle ∧ ∃ off v, i = .hostWrite off v ∧ regAt off = r

/-- The instruction is a write of STATUS while BUSY = 0 that has 1 at `bit` (rule R41). -/
def State.WritesOneToStatus (s : State) (i : Instr) (bit : Nat) : Prop :=
  s.phase = .idle ∧ ∃ off v, i = .hostWrite off v ∧ off &&& 0xFFC = 0x004 ∧ v.getLsbD bit = true

/-- The instruction is a write of KEYLEN or of a key register while BUSY = 0 (rule R45). -/
def State.KeyWrite (s : State) (i : Instr) : Prop := s.IdleWriteTo i .keyLen ∨ ∃ m, s.IdleWriteTo i (.key m)

/-- A register that stands at one offset only is written there. -/
theorem State.IdleWriteTo.atOffset (h : s.IdleWriteTo i r) {a : Nat} (ha : ∀ b, r.standsAt b = true → b = a) :
    s.phase = .idle ∧ ∃ off v, i = .hostWrite off v ∧ (off &&& 0xFFC).toNat = a := by
  obtain ⟨hp, off, v, hi, rfl⟩ := h
  exact ⟨hp, off, v, hi, ha _ (standsAt_regAt off)⟩

theorem State.IdleWriteTo.within (h : s.IdleWriteTo i r) {lo hi : Nat}
    (hr : ∀ b, r.standsAt b = true → lo ≤ b ∧ b < hi) :
    s.phase = .idle ∧ ∃ off v, i = .hostWrite off v ∧ lo ≤ (off &&& 0xFFC).toNat ∧ (off &&& 0xFFC).toNat < hi := by
  obtain ⟨hp, off, v, heq, rfl⟩ := h
  exact ⟨hp, off, v, heq, hr _ (standsAt_regAt off)⟩

/-- KEYLEN and the key registers stand in 0x00C..0x02C (rule R31). -/
theorem State.KeyWrite.within (h : s.KeyWrite i) :
    s.phase = .idle ∧ ∃ off v, i = .hostWrite off v ∧ 0x00C ≤ (off &&& 0xFFC).toNat ∧ (off &&& 0xFFC).toNat < 0x030 := by
  rcases h with h | ⟨m, h⟩
  · exact h.within fun b hb => by simp only [Reg.standsAt, beq_iff_eq] at hb; omega
  · exact h.within fun b hb => by simp only [Reg.standsAt, beq_iff_eq] at hb; omega

theorem offset_of_regAt_status {off : BitVec 12} (h : regAt off = .status) : off &&& 0xFFC = 0x004 :=
  BitVec.eq_of_toNat_eq (eq_of_beq (h ▸ standsAt_regAt off : Reg.status.standsAt _ = true))

theorem offset_of_regAt_cmd {off : BitVec 12} (h : regAt off = .cmd) : off &&& 0xFFC = 0x008 :=
  BitVec.eq_of_toNat_eq (eq_of_beq (h ▸ standsAt_regAt off : Reg.cmd.standsAt _ = true))

/-! ### Which write changes a register (rules R32, R41 to R48 and R55) -/

theorem writeReg_ie_changed (h : (s.writeReg v r).ie ≠ s.ie) : r = .ctrl := by
  cases r with
  | ctrl => rfl
  | _ => exact absurd rfl h

theorem writeReg_latch_changed (h : (s.writeReg v r).latch ≠ s.latch) : r = .cmd := by
  cases r with
  | cmd => rfl
  | _ => exact absurd rfl h

theorem writeReg_keyLen_changed (h : (s.writeReg v r).keyLen ≠ s.keyLen) : r = .keyLen := by
  cases r with
  | keyLen => rfl
  | _ => exact absurd rfl h

theorem writeReg_key_changed {m : Fin 8} (h : (s.writeReg v r).key[m] ≠ s.key[m]) : r = .key m := by
  cases r with
  | key n =>
    by_cases hnm : n = m
    · rw [hnm]
    · have hkeep : (s.key.set n v)[m] = s.key[m] := Vector.getElem_set_ne n.isLt m.isLt fun hval => hnm (Fin.ext hval)
      exact absurd hkeep h
  | _ => exact absurd rfl h

theorem writeReg_gfA_changed (h : (s.writeReg v r).gfA ≠ s.gfA) : r = .gfA := by
  cases r with
  | gfA => rfl
  | _ => exact absurd rfl h

theorem writeReg_gfB_changed (h : (s.writeReg v r).gfB ≠ s.gfB) : r = .gfB := by
  cases r with
  | gfB => rfl
  | _ => exact absurd rfl h

theorem writeReg_block_changed (h : (s.writeReg v r).block ≠ s.block) : ∃ j, r = .block j := by
  cases r with
  | block j => exact ⟨j, rfl⟩
  | _ => exact absurd rfl h

theorem writeReg_rk_changed (h : (s.writeReg v r).rk ≠ s.rk) : ∃ j, r = .rk j := by
  cases r with
  | rk j => exact ⟨j, rfl⟩
  | _ => exact absurd rfl h

theorem writeReg_gfR (s : State) (v : Word) (r : Reg) : (s.writeReg v r).gfR = s.gfR := by cases r <;> rfl

theorem writeReg_busy (hp : s.phase = .idle) (h : (s.writeReg v r).phase = .busy) : r = .cmd := by
  cases r with
  | cmd => rfl
  | _ => exact absurd (hp.symm.trans h) (by decide)

/-- DONE falls by an acceptance or by its write-1-to-clear (rules R35 and R41). -/
theorem writeReg_done_changed (h : (s.writeReg v r).done ≠ s.done) :
    (s.writeReg v r).done = false ∧ (r = .cmd ∨ (r = .status ∧ v.getLsbD 1 = true)) := by
  cases r with
  | cmd => exact ⟨rfl, .inl rfl⟩
  | status =>
    by_cases hv : v.getLsbD 1 = true
    · exact ⟨if_pos hv, .inr ⟨rfl, hv⟩⟩
    · exact absurd (if_neg hv) h
  | _ => exact absurd rfl h

/-- ERR and ERRCODE fall together by their write-1-to-clear (rules R36 and R41). -/
theorem writeReg_errors_changed (h : (s.writeReg v r).err ≠ s.err ∨ (s.writeReg v r).errCode ≠ s.errCode) :
    (s.writeReg v r).err = false ∧ (s.writeReg v r).errCode = .noError ∧ r = .status ∧ v.getLsbD 2 = true := by
  cases r with
  | status =>
    by_cases hv : v.getLsbD 2 = true
    · exact ⟨if_pos hv, if_pos hv, rfl, hv⟩
    · rcases h with h | h <;> exact absurd (if_neg hv) h
  | _ => rcases h with h | h <;> exact absurd rfl h

/-- The schedule's fields other than CURSOR are the same in both states. -/
structure State.SameSchedule (s t : State) : Prop where
  w : t.w = s.w
  keyValid : t.keyValid = s.keyValid
  nk : t.nk = s.nk
  nr : t.nr = s.nr

/-- A write invalidates the schedule and clears CURSOR, as a write of KEYLEN or KEY, or leaves both (rule R45). -/
theorem writeReg_schedule (s : State) (v : Word) (r : Reg) :
    ((r = .keyLen ∨ ∃ m, r = .key m) ∧ (s.writeReg v r).keyValid = false) ∨
      (s.SameSchedule (s.writeReg v r) ∧ (s.writeReg v r).cursor = s.cursor) := by
  cases r with
  | keyLen => exact .inl ⟨.inl rfl, rfl⟩
  | key m => exact .inl ⟨.inr ⟨m, rfl⟩, rfl⟩
  | _ => exact .inr ⟨⟨rfl, rfl, rfl, rfl⟩, rfl⟩

/-! ### The host's registers -/

/-- The registers that only the host writes are the same in both states. -/
structure State.SameHostRegs (s t : State) : Prop where
  ie : t.ie = s.ie
  latch : t.latch = s.latch
  keyLen : t.keyLen = s.keyLen
  key : t.key = s.key
  gfA : t.gfA = s.gfA
  gfB : t.gfB = s.gfB

theorem CommandEffect.sameHostRegs (he : CommandEffect s i t) : s.SameHostRegs t := by
  rw [he.frame]
  exact ⟨rfl, rfl, rfl, rfl, rfl, rfl⟩

/-- A value of the host's registers changes only by a write while idle of the register that `hwrite` names. -/
theorem Effect.idleWriteTo {α : Type} {f : State → α} (e : Effect s i t) (hne : f t ≠ f s)
    (hf : ∀ u, s.SameHostRegs u → f u = f s) (hwrite : ∀ v r', f (s.writeReg v r') ≠ f s → r' = r) :
    s.IdleWriteTo i r := by
  cases e with
  | command _ he => exact absurd (hf _ he.sameHostRegs) hne
  | read | busyWrite => exact absurd hne (not_not_intro (hf _ ⟨rfl, rfl, rfl, rfl, rfl, rfl⟩))
  | idleWrite off v hp => exact ⟨hp, off, v, rfl, hwrite v _ hne⟩

/-! ### STATUS -/

theorem Effect.done_changed (e : Effect s i t) (hne : t.done ≠ s.done) :
    (i.isCommand = true ∧ t.done = true) ∨ (s.IdleWriteTo i .cmd ∧ t.done = false) ∨
      (t.done = false ∧ s.WritesOneToStatus i 1) := by
  cases e with
  | command hc he => exact .inl ⟨hc, he.done⟩
  | read | busyWrite => exact absurd rfl hne
  | idleWrite off v hp =>
    obtain ⟨hdone, hr | ⟨hr, hv⟩⟩ := writeReg_done_changed hne
    · exact .inr (.inl ⟨⟨hp, off, v, rfl, hr⟩, hdone⟩)
    · exact .inr (.inr ⟨hdone, hp, off, v, rfl, offset_of_regAt_status hr, hv⟩)

theorem Effect.errors_changed (e : Effect s i t) (hne : t.err ≠ s.err ∨ t.errCode ≠ s.errCode) :
    (∃ code, commandError s i = some code ∧ t.err = true ∧ t.errCode = code) ∨
      (s.phase = .busy ∧ (∃ off v, i = .hostWrite off v) ∧ t.err = true ∧ t.errCode = .busy) ∨
      (t.err = false ∧ t.errCode = .noError ∧ s.WritesOneToStatus i 2) := by
  cases e with
  | command _ he =>
    rcases he.errors with ⟨herr, hcode⟩ | hfail
    · simp [herr, hcode] at hne
    · exact .inl hfail
  | read => rcases hne with hne | hne <;> exact absurd rfl hne
  | busyWrite off v hp => exact .inr (.inl ⟨hp, ⟨off, v, rfl⟩, rfl, rfl⟩)
  | idleWrite off v hp =>
    obtain ⟨herr, hcode, hr, hv⟩ := writeReg_errors_changed hne
    exact .inr (.inr ⟨herr, hcode, hp, off, v, rfl, offset_of_regAt_status hr, hv⟩)

theorem Effect.isCommand_of_busy_falls (e : Effect s i t) (h : s.phase = .busy ∧ t.phase = .idle) : i.isCommand = true := by
  obtain ⟨hs, ht⟩ := h
  cases e with
  | command hc => exact hc
  | read | busyWrite => exact absurd (hs.symm.trans ht) (by decide)
  | idleWrite _ _ hp => exact absurd (hs.symm.trans hp) (by decide)

/-- LATCH changes and BUSY rises by an acceptance only (rule R116). -/
theorem Effect.idleWriteTo_cmd (e : Effect s i t) (h : t.latch ≠ s.latch ∨ (s.phase = .idle ∧ t.phase = .busy)) :
    s.IdleWriteTo i .cmd := by
  rcases h with hne | ⟨hs, ht⟩
  · exact e.idleWriteTo (f := State.latch) hne (fun _ h => h.latch) fun _ _ => writeReg_latch_changed
  · cases e with
    | command _ he => exact absurd (he.phase.symm.trans ht) (by decide)
    | read | busyWrite => exact absurd (hs.symm.trans ht) (by decide)
    | idleWrite off v hp => exact ⟨hp, off, v, rfl, writeReg_busy hp ht⟩

/-! ### The core's registers -/

theorem Effect.gfR_changed (e : Effect s i t) (hne : t.gfR ≠ s.gfR) :
    i ∈ [Instr.gfBittest, .gfXtime, .gfMul, .gfInv, .gfSbox, .gfInvsbox] := by
  cases e with
  | command _ he =>
    cases he with
    | field _ hi => exact hi
    | _ => exact absurd rfl hne
  | read | busyWrite => exact absurd rfl hne
  | idleWrite off v => exact absurd (writeReg_gfR s v _) hne

/-- What an instruction does to the schedule: KEY_EXPAND installs it, a key write invalidates it, nothing else touches it. -/
theorem Effect.schedule (e : Effect s i t) :
    i = .keyExpand ∨ (s.KeyWrite i ∧ t.keyValid = false) ∨ s.SameSchedule t := by
  cases e with
  | command _ he =>
    cases he with
    | keyExpand => exact .inl rfl
    | _ => exact .inr (.inr ⟨rfl, rfl, rfl, rfl⟩)
  | read | busyWrite => exact .inr (.inr ⟨rfl, rfl, rfl, rfl⟩)
  | idleWrite off v hp =>
    rcases writeReg_schedule s v (regAt off) with ⟨hr | ⟨m, hr⟩, hk⟩ | ⟨hsame, -⟩
    · exact .inr (.inl ⟨.inl ⟨hp, off, v, rfl, hr⟩, hk⟩)
    · exact .inr (.inl ⟨.inr ⟨m, hp, off, v, rfl, hr⟩, hk⟩)
    · exact .inr (.inr hsame)

theorem Effect.schedule_changed (e : Effect s i t)
    (hne : t.w ≠ s.w ∨ t.keyValid ≠ s.keyValid ∨ t.nk ≠ s.nk ∨ t.nr ≠ s.nr) : i = .keyExpand ∨ s.KeyWrite i := by
  rcases e.schedule with hi | ⟨hw, -⟩ | ⟨hw, hk, hnk, hnr⟩
  · exact .inl hi
  · exact .inr hw
  · simp [hw, hk, hnk, hnr] at hne

theorem Effect.keyValid_of_keyValid (e : Effect s i t) (ht : t.keyValid = true) : s.keyValid = true ∨ i = .keyExpand := by
  rcases e.schedule with hi | ⟨-, hk⟩ | hsame
  · exact .inr hi
  · exact absurd (hk.symm.trans ht) (by decide)
  · exact .inl (hsame.keyValid ▸ ht)

theorem CommandEffect.cursor_changed (he : CommandEffect s i t) (hne : t.cursor ≠ s.cursor) :
    i ∈ [Instr.keyExpand, .rkResetFwd, .rkResetBwd, .rkNextEnc, .rkNextDec, .encBlock, .decBlock] := by
  cases he with
  | keyExpand => exact List.mem_cons_self
  | resetCursor hi | nextKey hi | cipher hi =>
    simp only [List.mem_cons, List.not_mem_nil, or_false] at hi
    rcases hi with rfl | rfl <;> decide
  | _ => exact absurd rfl hne

theorem Effect.cursor_changed (e : Effect s i t) (hne : t.cursor ≠ s.cursor) :
    i ∈ [Instr.keyExpand, .rkResetFwd, .rkResetBwd, .rkNextEnc, .rkNextDec, .encBlock, .decBlock] ∨ s.KeyWrite i := by
  cases e with
  | command _ he => exact .inl (he.cursor_changed hne)
  | read | busyWrite => exact absurd rfl hne
  | idleWrite off v hp =>
    rcases writeReg_schedule s v (regAt off) with ⟨hr | ⟨m, hr⟩, -⟩ | ⟨-, hcur⟩
    · exact .inr (.inl ⟨hp, off, v, rfl, hr⟩)
    · exact .inr (.inr ⟨m, hp, off, v, rfl, hr⟩)
    · exact absurd hcur hne

theorem Effect.rk_changed (e : Effect s i t) (hne : t.rk ≠ s.rk) :
    i ∈ [Instr.rkNextEnc, .rkNextDec] ∨ (∃ n, i = .rkLoad n) ∨ ∃ j, s.IdleWriteTo i (.rk j) := by
  cases e with
  | command _ he =>
    cases he with
    | nextKey hi => exact .inl hi
    | loadKey n => exact .inr (.inl ⟨n, rfl⟩)
    | _ => exact absurd rfl hne
  | read | busyWrite => exact absurd rfl hne
  | idleWrite off v hp =>
    obtain ⟨j, hr⟩ := writeReg_rk_changed hne
    exact .inr (.inr ⟨j, hp, off, v, rfl, hr⟩)

theorem Effect.block_changed (e : Effect s i t) (hne : t.block ≠ s.block) :
    i ∈ [Instr.subBytes, .invSubBytes, .shiftRows, .invShiftRows, .mixColumns, .invMixColumns, .addRoundKey, .encBlock,
         .decBlock] ∨ ∃ j, s.IdleWriteTo i (.block j) := by
  cases e with
  | command _ he =>
    cases he with
    | transform _ hi => exact .inl (List.mem_append_left [Instr.encBlock, .decBlock] hi)
    | cipher hi =>
      exact .inl (List.mem_append_right
        [Instr.subBytes, .invSubBytes, .shiftRows, .invShiftRows, .mixColumns, .invMixColumns, .addRoundKey] hi)
    | _ => exact absurd rfl hne
  | read | busyWrite => exact absurd rfl hne
  | idleWrite off v hp =>
    obtain ⟨j, hr⟩ := writeReg_block_changed hne
    exact .inr ⟨j, hp, off, v, rfl, hr⟩

/-- Settles O51: for each register, the effects and the written registers that can change it, at the offsets of rule R31. -/
theorem registersHaveTheirWriters : Obligations.RegistersHaveTheirWriters := by
  unfold Obligations.RegistersHaveTheirWriters
  intro i s t h keyWrite writeAt
  have e := effect_of_exec h
  refine ⟨fun hne => ?ie, fun hne => ?keyLen, fun m hne => ?key, fun hne => ?gfA, fun hne => ?gfB, fun hne => ?done,
    e.errors_changed, e.isCommand_of_busy_falls, e.gfR_changed, fun hne => ?schedule, e.keyValid_of_keyValid,
    fun hne => ?cursor, fun hne => ?rk, fun hne => ?block, fun hne => ?latch⟩
  case ie =>
    exact (e.idleWriteTo (f := State.ie) hne (fun _ h => h.ie) fun _ _ => writeReg_ie_changed).atOffset fun _ => eq_of_beq
  case keyLen =>
    exact (e.idleWriteTo (f := State.keyLen) hne (fun _ h => h.keyLen) fun _ _ => writeReg_keyLen_changed).atOffset
      fun _ => eq_of_beq
  case key =>
    exact (e.idleWriteTo (f := fun u => u.key[m]) hne (fun _ h => by rw [h.key]) fun _ _ => writeReg_key_changed).atOffset
      fun _ => eq_of_beq
  case gfA =>
    exact (e.idleWriteTo (f := State.gfA) hne (fun _ h => h.gfA) fun _ _ => writeReg_gfA_changed).atOffset fun _ => eq_of_beq
  case gfB =>
    exact (e.idleWriteTo (f := State.gfB) hne (fun _ h => h.gfB) fun _ _ => writeReg_gfB_changed).atOffset fun _ => eq_of_beq
  case done =>
    rcases e.done_changed hne with hc | ⟨hw, hdone⟩ | hclear
    · exact .inl hc
    · exact .inr (.inl ⟨hw.atOffset fun _ => eq_of_beq, hdone⟩)
    · exact .inr (.inr hclear)
  case schedule => exact (e.schedule_changed hne).imp_right State.KeyWrite.within
  case cursor => exact (e.cursor_changed hne).imp_right State.KeyWrite.within
  case rk =>
    rcases e.rk_changed hne with hi | hi | ⟨j, hw⟩
    · exact .inl hi
    · exact .inr (.inl hi)
    · exact .inr (.inr (hw.within fun b hb => by simp only [Reg.standsAt, beq_iff_eq] at hb; omega))
  case block =>
    rcases e.block_changed hne with hi | ⟨j, hw⟩
    · exact .inl hi
    · exact .inr (hw.within fun b hb => by simp only [Reg.standsAt, beq_iff_eq] at hb; omega)
  case latch =>
    obtain ⟨hp, off, v, hi, hr⟩ := e.idleWriteTo_cmd hne
    exact ⟨hp, off, v, hi, offset_of_regAt_cmd hr⟩

end Sys2Proof.Machine

/-! ## The host port while idle (20_memory.md) -/

namespace Sys2Proof.Machine

variable {s : State}

/-! ### The two low bits of an offset (rule R84) -/

theorem alignOffset_alignOffset (off : BitVec 12) : alignOffset (alignOffset off) = alignOffset off := by
  rw [alignOffset, alignOffset, BitVec.and_assoc, BitVec.and_self]

theorem regAt_alignOffset (off : BitVec 12) : regAt (alignOffset off) = regAt off :=
  congrArg (fun a : BitVec 12 => regOf a.toNat) (alignOffset_alignOffset off)

/-- Settles O42: a transaction sees its offset through the register there, and aligning twice is aligning once. -/
theorem lowOffsetBitsAreIgnored : Obligations.LowOffsetBitsAreIgnored := by
  unfold Obligations.LowOffsetBitsAreIgnored
  intro s off v
  have hreg : regAt off = regAt (off &&& 0xFFC) := (regAt_alignOffset off).symm
  exact ⟨congrArg (fun r => Host.Outcome.next (s.readPort r)) hreg,
    congrArg (fun r => Host.Outcome.next (s.writePort v r)) hreg⟩

/-! ### What each register reads as (rules R32 to R49) -/

theorem regValue_ctrl (s : State) : s.regValue .ctrl = if s.ie then 1 else 0 := by
  change (BitVec.ofBool s.ie).setWidth 32 = _
  cases s.ie <;> rfl

theorem regValue_ekey (s : State) (j : Fin 60) :
    s.regValue (.ekey j) = if s.keyValid = true ∧ j.val < 4 * (s.nr.toNat + 1) then s.w[j] else 0 := by
  simp [State.regValue, State.ekeyValue]

/-- The fields of STATUS that tell of the schedule (rules R33, R39 and R40). -/
theorem extractLsb'_statusWord_schedule (s : State) :
    s.statusWord.extractLsb' 16 4 = s.nk ∧ s.statusWord.extractLsb' 20 4 = s.nr ∧
    s.statusWord.extractLsb' 24 4 = s.cursor := by
  refine ⟨?nk, ?nr, ?cursor⟩
  all_goals
    refine BitVec.eq_of_getLsbD_eq fun k hk => ?_
    rw [BitVec.getLsbD_extractLsb', getLsbD_statusWord]
    interval_cases k <;> simp

theorem busyFlag_of_idle (hp : s.phase = .idle) : s.busyFlag = false := by simp [State.busyFlag, hp]

/-- The bits of a STATUS read while idle, all exact (rules R33 and R85). -/
theorem statusWord_of_idle (hp : s.phase = .idle) :
    s.statusWord.getLsbD 0 = false ∧ s.statusWord.getLsbD 1 = s.done ∧ s.statusWord.getLsbD 2 = s.err ∧
    s.statusWord.getLsbD 3 = s.keyValid ∧ s.statusWord.extractLsb' 4 4 = 0 ∧
    (s.statusWord.extractLsb' 8 4).toNat = codeNumber s.errCode ∧ s.statusWord.extractLsb' 12 4 = 0 ∧
    s.statusWord.extractLsb' 16 4 = s.nk ∧ s.statusWord.extractLsb' 20 4 = s.nr ∧
    s.statusWord.extractLsb' 24 4 = s.cursor ∧ s.statusWord.extractLsb' 28 4 = 0 := by
  obtain ⟨hnk, hnr, hcursor⟩ := extractLsb'_statusWord_schedule s
  refine ⟨?busy, getLsbD_statusWord s 1, getLsbD_statusWord s 2, getLsbD_statusWord s 3,
    extractLsb'_statusWord_reserved s (by decide), ?errCode, extractLsb'_statusWord_reserved s (by decide),
    hnk, hnr, hcursor, extractLsb'_statusWord_reserved s (by decide)⟩
  case busy => exact (getLsbD_statusWord s 0).trans (busyFlag_of_idle hp)
  case errCode => rw [extractLsb'_statusWord_errCode, toNat_bits]

/-- Settles O43: the value read is that of the register which rule R31 puts at the offset. -/
theorem idleReadReturnsTheRegister : Obligations.IdleReadReturnsTheRegister := by
  unfold Obligations.IdleReadReturnsTheRegister
  intro s off hp
  refine ⟨s.regValue (regAt off), congrArg Host.Outcome.next (readPort_of_idle s _ hp), fun h => ?ctrl, fun h => ?status,
    fun h => ?cmd, fun h => ?keyLen, fun m h => ?key, fun j h => ?block, fun j h => ?rk, fun h => ?gfA, fun h => ?gfB,
    fun h => ?gfR, fun j h => ?ekey, fun h => ?reserved⟩
  case ctrl => rw [regAt_of_offset h]; exact regValue_ctrl s
  case status => rw [regAt_of_offset h]; exact statusWord_of_idle hp
  case cmd => rw [regAt_of_offset h]; rfl
  case keyLen => rw [regAt_of_offset h]; exact toNat_zext32 s.keyLen
  case key => rw [regAt_of_offset h, regOf_key]; rfl
  case block => rw [regAt_of_offset h, regOf_block]; rfl
  case rk => rw [regAt_of_offset h, regOf_rk]; rfl
  case gfA => rw [regAt_of_offset h]; exact toNat_zext32 s.gfA
  case gfB => rw [regAt_of_offset h]; exact toNat_zext32 s.gfB
  case gfR => rw [regAt_of_offset h]; exact toNat_zext32 s.gfR
  case ekey => rw [regAt_of_offset h, regOf_ekey]; exact regValue_ekey s j
  case reserved => rw [regAt_of_offset rfl, regOf_reserved h]; rfl

/-! ### What a write of each register does (rules R32, R41 to R48 and R55) -/

/-- Write-1-to-clear as a mask on the flags (rule R41). -/
theorem writeStatus_eq_mask (s : State) (v : Word) : s.writeStatus v =
    { s with done := s.done && !v.getLsbD 1, err := s.err && !v.getLsbD 2,
             errCode := if v.getLsbD 2 then .noError else s.errCode } := by
  have hclear (b f : Bool) : (if b then false else f) = (f && !b) := by cases b <;> simp
  simp only [State.writeStatus, hclear]

theorem getElem_clearedSchedule (j : Fin 60) : clearedSchedule[j] = 0 :=
  Vector.getElem_replicate j.isLt

/-- Nothing from 0x058 on is written (rule R55). -/
theorem writeReg_readOnly (s : State) (v : Word) {a : Nat} (h : 0x058 ≤ a) : s.writeReg v (regOf a) = s := by
  rcases regOf_readOnly h with hr | ⟨j, hr⟩ | hr <;> rw [hr] <;> rfl

/-- Settles O45: the write is that of the register which rule R31 puts at the offset. -/
theorem idleWriteFollowsTheRegister : Obligations.IdleWriteFollowsTheRegister := by
  unfold Obligations.IdleWriteFollowsTheRegister
  intro s off v hp
  refine ⟨s.writeReg v (regAt off), congrArg Host.Outcome.next (writePort_of_idle s v _ hp), fun h => ?ctrl,
    fun h => ?status, fun h => ?cmd, fun h => ?keyLen, fun m h => ?key, fun j h => ?block, fun j h => ?rk, fun h => ?gfA,
    fun h => ?gfB, fun h => ?readOnly⟩
  case ctrl => rw [regAt_of_offset h]; rfl
  case status => rw [regAt_of_offset h]; exact writeStatus_eq_mask s v
  case cmd => rw [regAt_of_offset h]; rfl
  case keyLen =>
    rw [regAt_of_offset h, ← BitVec.setWidth_eq_extractLsb' (by decide)]
    exact ⟨rfl, getElem_clearedSchedule⟩
  case key => rw [regAt_of_offset h, regOf_key]; exact ⟨rfl, getElem_clearedSchedule⟩
  case block => rw [regAt_of_offset h, regOf_block]; rfl
  case rk => rw [regAt_of_offset h, regOf_rk]; rfl
  case gfA => rw [regAt_of_offset h, ← BitVec.setWidth_eq_extractLsb' (by decide)]; rfl
  case gfB => rw [regAt_of_offset h, ← BitVec.setWidth_eq_extractLsb' (by decide)]; rfl
  case readOnly => exact writeReg_readOnly s v h

end Sys2Proof.Machine

/-! ## A step runs what it decodes (rules R91, R111 and R116) -/

namespace Sys2Proof.Machine

variable {s : State} {i : Instr}

/-! ### Decoding an encoding -/

/-- The index of RK_LOAD comes back from its field, and the other bits of the word are its row's (rules R113 and R114). -/
theorem decodeCommand_rkLoadWord : ∀ n < 16, decodeCommand (rkLoadWord n) = .instr (.rkLoad n) := by decide

/-- The decoder undoes the encoder on every instruction that has an encoding (rules R111 to R116). -/
theorem decode_encode (hwf : i.wellFormed = true) : decode (encode i) = .instr i := by
  cases i with
  | rkLoad n => exact decodeCommand_rkLoadWord n (Nat.lt_succ_of_le (of_decide_eq_true hwf))
  | hostRead off => exact congrArg Decoded.instr (decodeTransaction_hostReadBits off)
  | hostWrite off v => exact congrArg Decoded.instr (decodeTransaction_hostWriteBits off v)
  | _ => rfl

theorem decodeCommand_of_encode (hwf : i.wellFormed = true) {v : Word} (h : encode i = .command v) :
    decodeCommand v = .instr i := by
  have hd := decode_encode hwf
  rwa [h] at hd

theorem decodeTransaction_of_encode (hwf : i.wellFormed = true) {b : Transaction} (h : encode i = .transaction b) :
    decodeTransaction b = i := by
  have hd := decode_encode hwf
  rw [h] at hd
  exact Decoded.instr.inj hd

/-! ### The move that a step makes -/

theorem popEvent_of_cons {e : Event} {rest : List Event} (h : s.events = e :: rest) :
    s.popEvent = { s with events := rest } := by
  rw [State.popEvent, h, List.tail_cons]

theorem step_of_run (h : s.turn = .run i) : step s = exec i s.popEvent := by
  simp [step, h]

theorem step_of_rest (h : s.turn = .rest) : step s = .next s.popEvent := by
  simp [step, h]

theorem step_of_transaction {b : Transaction} {rest : List Event} (h : s.events = .transaction b :: rest) :
    step s = exec (decodeTransaction b) { s with events := rest } := by
  rw [step_of_run (turn_of_transaction s h), popEvent_of_cons h]

/-- Settles O7: the turn is the transaction's, or the core's, which completes the latched command or rests. -/
theorem stepRunsTheDecodedInstruction : Obligations.StepRunsTheDecodedInstruction := by
  unfold Obligations.StepRunsTheDecodedInstruction
  refine ⟨fun s b rest hev => step_of_transaction hev, ?encoded, ?latched, ?idle⟩
  case encoded =>
    intro s i b rest hwf henc hev
    rw [step_of_transaction hev, decodeTransaction_of_encode hwf henc]
  case latched =>
    intro s i hwf henc hp hev
    have hmove : s.coreMove = .run i := coreMove_of_instr s hp (decodeCommand_of_encode hwf henc)
    exact step_of_run ((turn_of_coreTurn s hev).trans hmove)
  case idle =>
    intro s hp hev
    exact step_of_rest ((turn_of_coreTurn s hev).trans (coreMove_of_idle s hp))

end Sys2Proof.Machine

/-! ## Encoding and decoding (30_encoding.md) -/

namespace Sys2Proof.Machine

variable {s : State} {i : Instr} {v : Word}

/-! ### The fields of a command word (rules R112 to R114) -/

theorem toNat_opcodeField (v : Word) : (v &&& 0xFF).toNat = v.toNat % 0x100 := by
  rw [BitVec.toNat_and]
  exact Nat.and_two_pow_sub_one_eq_mod v.toNat 8

theorem rkIndexField_eq (v : Word) : rkIndexField v = v.toNat / 0x100 % 0x10 := by
  rw [rkIndexField, BitVec.extractLsb'_toNat, Nat.shiftRight_eq_div_pow]

theorem rkIndexField_le (v : Word) : rkIndexField v ≤ 15 :=
  Nat.le_of_lt_succ (v.extractLsb' 8 4).isLt

/-- The bits of a word from bit `k` on are zero exactly when its number is below `2 ^ k`. -/
theorem ushiftRight_eq_zero_iff (v : Word) (k : Nat) : v >>> k = 0 ↔ v.toNat < 2 ^ k := by
  rw [← BitVec.toNat_inj, BitVec.toNat_ushiftRight, Nat.shiftRight_eq_div_pow]
  exact Nat.div_eq_zero_iff_lt (Nat.two_pow_pos k)

theorem toNat_rkLoadWord : ∀ n < 16, (rkLoadWord n).toNat = 0x15 + 0x100 * n := by decide

/-- A word of format C1 is RK_LOAD's word for its index field: opcode 0x15, and bits 31:12 zero (rule R113). -/
theorem rkLoadWord_rkIndexField (hop : (v &&& 0xFF).toNat = 0x15) (hres : v >>> 12 = 0) :
    rkLoadWord (rkIndexField v) = v := by
  rw [toNat_opcodeField] at hop
  rw [ushiftRight_eq_zero_iff] at hres
  refine BitVec.eq_of_toNat_eq ?_
  rw [toNat_rkLoadWord _ (Nat.lt_succ_of_le (rkIndexField_le v)), rkIndexField_eq]
  omega

/-- A word whose bits 31:8 are zero is its opcode (rule R112). -/
theorem eq_ofNat_opcodeField (hres : v >>> 8 = 0) : v = BitVec.ofNat 32 (v &&& 0xFF).toNat := by
  rw [ushiftRight_eq_zero_iff] at hres
  rw [toNat_opcodeField, Nat.mod_eq_of_lt (show v.toNat < 0x100 from hres), BitVec.ofNat_toNat, BitVec.setWidth_eq]

/-! ### The rows of rule R115 -/

/-- Format C0 fixes every bit, so such a row accepts its own word only (rules R112 and R116). -/
theorem eq_pattern_of_accepts {row : CommandRow} (hmask : row.mask = 0xFFFFFFFF#32) (h : row.accepts v = true) :
    v = row.pattern := by
  have hmatch : v &&& row.mask = row.pattern := eq_of_beq h
  rwa [hmask, show 0xFFFFFFFF#32 = BitVec.allOnes 32 from rfl, BitVec.and_allOnes] at hmatch

/-- What the mask of format C1 compares: the opcode and the reserved bits (rules R113 and R116). -/
theorem fields_of_accepts_rowC1 (h : rowC1.accepts v = true) : (v &&& 0xFF).toNat = 0x15 ∧ v >>> 12 = 0 := by
  have hmatch : v &&& 0xFFFFF0FF#32 = 0x15#32 := eq_of_beq h
  constructor
  · have hop : v &&& 0xFF = (v &&& 0xFFFFF0FF#32) &&& 0xFF := by rw [BitVec.and_assoc]; rfl
    rw [hop, hmatch]; rfl
  · have hres : v >>> 12 = (v &&& 0xFFFFF0FF#32) >>> 12 := by
      refine BitVec.eq_of_getLsbD_eq fun j hj => ?_
      simp only [BitVec.getLsbD_ushiftRight, BitVec.getLsbD_and]
      interval_cases j <;> simp
    rw [hres, hmatch]; rfl

/-- A row of rule R115 has format C0, with the word that the encoder writes for its instruction, or is RK_LOAD's. -/
theorem format_of_mem_commandTable : ∀ row ∈ commandTable,
    (row.mask = 0xFFFFFFFF#32 ∧ (row.build row.pattern).wellFormed = true ∧
      encode (row.build row.pattern) = .command row.pattern) ∨ row = rowC1 := by
  simp [commandTable, rowC0, Instr.wellFormed, encode]

/-- The encoder gives back every word that a row accepts. -/
theorem encode_build {row : CommandRow} (hrow : row ∈ commandTable) (h : row.accepts v = true) :
    (row.build v).wellFormed = true ∧ encode (row.build v) = .command v := by
  obtain ⟨hmask, hword⟩ | rfl := format_of_mem_commandTable row hrow
  · rw [eq_pattern_of_accepts hmask h]
    exact hword
  · obtain ⟨hop, hres⟩ := fields_of_accepts_rowC1 h
    exact ⟨decide_eq_true (rkIndexField_le v), congrArg Encoded.command (rkLoadWord_rkIndexField hop hres)⟩

/-! ### Encoding what was decoded -/

/-- The word matches the row that it is decoded by (rule R116). -/
theorem row_of_decodeCommand (h : decodeCommand v = .instr i) :
    ∃ row ∈ commandTable, row.accepts v = true ∧ row.build v = i := by
  unfold decodeCommand at h
  split at h
  case h_1 row hfind =>
    have hacc : row.accepts v = true := List.find?_some (p := (CommandRow.accepts · v)) hfind
    exact ⟨row, List.mem_of_find?_eq_some hfind, hacc, Decoded.instr.inj h⟩
  case h_2 => cases h

/-- An illegal word matches no row (rule R116). -/
theorem not_accepts_of_illegal {why : IllegalWord} (h : decodeCommand v = .illegal why) :
    ∀ row ∈ commandTable, ¬ row.accepts v = true := by
  unfold decodeCommand at h
  split at h
  case h_1 => cases h
  case h_2 hfind => exact List.find?_eq_none.mp hfind

/-- The encoder undoes the decoder on every command word that is not illegal (rules R112 to R116). -/
theorem encode_of_decodeCommand (h : decodeCommand v = .instr i) : i.wellFormed = true ∧ encode i = .command v := by
  obtain ⟨row, hrow, hacc, rfl⟩ := row_of_decodeCommand h
  exact encode_build hrow hacc

/-- The fields of a write, put together, are the transaction (rule R111). -/
theorem hostWriteBits_fields {b : Transaction} (hwe : b.getLsbD 44 = true) :
    hostWriteBits (b.extractLsb' 32 12) (b.extractLsb' 0 32) = b := by
  refine BitVec.eq_of_getLsbD_eq fun j hj => ?_
  simp only [hostWriteBits, BitVec.getLsbD_append, BitVec.getLsbD_extractLsb']
  interval_cases j <;> simp [hwe]

/-- The offset of a read with zeros around it is the transaction without `we` and its ignored data bits (rule R111; log 11). -/
theorem hostReadBits_offset (b : Transaction) :
    hostReadBits (b.extractLsb' 32 12) = b &&& 0x0FFF00000000#45 := by
  refine BitVec.eq_of_getLsbD_eq fun j hj => ?_
  simp only [hostReadBits, BitVec.getLsbD_append, BitVec.getLsbD_extractLsb', BitVec.getLsbD_and]
  interval_cases j <;> simp

/-- Settles O9: the decoder undoes the encoder, by the instruction's constructors. -/
theorem decodeOfEncodeIsTheInstruction : Obligations.DecodeOfEncodeIsTheInstruction := by
  unfold Obligations.DecodeOfEncodeIsTheInstruction
  exact fun i hwf => decode_encode hwf

/-- Settles O10: a command word by the row that it matches, a transaction by its fields. -/
theorem encodeOfDecodeIsTheWord : Obligations.EncodeOfDecodeIsTheWord := by
  unfold Obligations.EncodeOfDecodeIsTheWord
  refine ⟨?command, ?write, ?read⟩
  case command =>
    intro v i h
    obtain ⟨hwf, henc⟩ := encode_of_decodeCommand h
    exact ⟨hwf, isCommand_of_decodeCommand h, henc⟩
  case write =>
    intro b hwe
    rw [decodeTransaction, if_pos hwe]
    exact congrArg Encoded.transaction (hostWriteBits_fields hwe)
  case read =>
    intro b hwe
    rw [decodeTransaction, if_neg (Bool.eq_false_iff.mp hwe)]
    exact congrArg Encoded.transaction (hostReadBits_offset b)

/-- Settles O11: the words that decode are encodings, and the one with a reserved bit is compared with every row. -/
theorem writtenOutWordsDecode : Obligations.WrittenOutWordsDecode := by
  unfold Obligations.WrittenOutWordsDecode
  refine ⟨?mul, ?expand, ?load, ?mix, ?dec, ?reserved, ?write, ?read⟩
  case reserved => decide
  case write | read => exact decodeTransaction_of_encode rfl (by decide)
  all_goals exact decodeCommand_of_encode rfl rfl

/-! ### Illegal words (rule R117) -/

/-- The number lies in a range of rule R117 that holds no opcode. -/
abbrev UnlistedOpcode (op : Nat) : Prop :=
  (0x07 ≤ op ∧ op ≤ 0x0F) ∨ (0x16 ≤ op ∧ op ≤ 0x1F) ∨ (0x27 ≤ op ∧ op ≤ 0x2F) ∨ (0x32 ≤ op ∧ op ≤ 0xFF)

/-- An encoding that rule R117 reserves: an opcode that is not listed, or a bit set in the reserved field of the format. -/
abbrev ReservedEncoding (v : Word) : Prop :=
  UnlistedOpcode (v &&& 0xFF).toNat ∨ ((v &&& 0xFF).toNat ≠ 0x15 ∧ v >>> 8 ≠ 0) ∨
    ((v &&& 0xFF).toNat = 0x15 ∧ v >>> 12 ≠ 0)

theorem not_reservedEncoding_rkLoadWord : ∀ n < 16, ¬ ReservedEncoding (rkLoadWord n) := by decide

/-- No instruction has a reserved encoding. -/
theorem not_reservedEncoding_of_encode (hwf : i.wellFormed = true) (h : encode i = .command v) : ¬ ReservedEncoding v := by
  cases i with
  | rkLoad n => cases h; exact not_reservedEncoding_rkLoadWord n (Nat.lt_succ_of_le (of_decide_eq_true hwf))
  | hostRead off => cases h
  | hostWrite off data => cases h
  | _ => cases h; decide

/-- Outside the ranges of rule R117 an opcode alone is a word of some row (rule R115). -/
theorem row_of_opcode : ∀ op < 0x32, ¬ UnlistedOpcode op →
    ∃ row ∈ commandTable, row.accepts (BitVec.ofNat 32 op) = true := by decide

/-- A word with a listed opcode and no reserved bit set matches a row: RK_LOAD's, or its opcode's. -/
theorem reservedEncoding_of_illegal {why : IllegalWord} (h : decodeCommand v = .illegal why) : ReservedEncoding v := by
  by_contra hlegal
  obtain ⟨hlisted, hC0, hC1⟩ : ¬ UnlistedOpcode (v &&& 0xFF).toNat ∧ ((v &&& 0xFF).toNat ≠ 0x15 → v >>> 8 = 0) ∧
      ((v &&& 0xFF).toNat = 0x15 → v >>> 12 = 0) := by
    simpa only [not_or, not_and, not_not] using hlegal
  by_cases hop : (v &&& 0xFF).toNat = 0x15
  · have hdec := decodeCommand_rkLoadWord (rkIndexField v) (Nat.lt_succ_of_le (rkIndexField_le v))
    rw [rkLoadWord_rkIndexField hop (hC1 hop), h] at hdec
    cases hdec
  · have hlt : (v &&& 0xFF).toNat < 0x32 := by
      rw [toNat_opcodeField] at hlisted ⊢
      omega
    obtain ⟨row, hrow, hacc⟩ := row_of_opcode _ hlt hlisted
    rw [← eq_ofNat_opcodeField (hC0 hop)] at hacc
    exact not_accepts_of_illegal h row hrow hacc

theorem illegal_iff_reservedEncoding (v : Word) : (∃ why, decodeCommand v = .illegal why) ↔ ReservedEncoding v := by
  constructor
  · exact fun ⟨why, h⟩ => reservedEncoding_of_illegal h
  · intro hres
    cases h : decodeCommand v with
    | instr i =>
      obtain ⟨hwf, henc⟩ := encode_of_decodeCommand h
      exact absurd hres (not_reservedEncoding_of_encode hwf henc)
    | illegal why => exact ⟨why, rfl⟩

theorem step_of_illegal (h : s.turn = .illegal) : step s = .next (s.popEvent.raiseError .opcode) := by
  simp [step, h, completeIllegal]

/-- Settles O12: a word that decodes is an encoding, which is never reserved, and the one of NOP is 0. -/
theorem illegalWordsRecordOpcodeError : Obligations.IllegalWordsRecordOpcodeError := by
  unfold Obligations.IllegalWordsRecordOpcodeError
  refine ⟨illegal_iff_reservedEncoding, ?step, ?nop⟩
  case step =>
    intro s why hp hev hd
    exact step_of_illegal ((turn_of_coreTurn s hev).trans (coreMove_of_illegal s hp hd))
  case nop =>
    intro v h
    obtain ⟨-, henc⟩ := encode_of_decodeCommand h
    exact (Encoded.command.inj henc).symm

/-! ### A command word written to CMD (rules R42 and R116) -/

theorem runSteps_one (s : State) : runSteps 1 s = step s := by
  unfold runSteps
  cases step s <;> rfl

theorem exec_hostWrite_cmd (hp : s.phase = .idle) (v : Word) : exec (.hostWrite 0x008 v) s = .next (s.accept v) :=
  congrArg Host.Outcome.next (writePort_of_idle s v .cmd hp)

/-- The idle core accepts the word that the host writes to CMD (rule R116). -/
theorem step_of_sw_cmd (hp : s.phase = .idle) {rest : List Event} (hev : s.events = sw 0x008 v :: rest) :
    step s = .next ({ s with events := rest }.accept v) := by
  rw [step_of_transaction hev, decodeTransaction_hostWriteBits]
  exact exec_hostWrite_cmd (s := { s with events := rest }) hp v

/-- The busy core's turn is the completion step of the latched command (rules R34 and R116). -/
theorem step_of_latched (hp : s.phase = .busy) (hev : s.events = [] ∨ ∃ rest, s.events = .coreTurn :: rest)
    (hd : decodeCommand s.latch = .instr i) : step s = exec i s.popEvent :=
  step_of_run ((turn_of_coreTurn s hev).trans (coreMove_of_instr s hp hd))

/-- Settles O8: the first step accepts the word, and the second completes the command that is latched. -/
theorem commandWrittenToCmdRuns : Obligations.CommandWrittenToCmdRuns := by
  unfold Obligations.CommandWrittenToCmdRuns
  intro s i v rest hp hwf henc hev
  calc runSteps 2 s
      = runSteps 1 ({ s with events := .coreTurn :: rest }.accept v) := runSteps_succ_of_step (step_of_sw_cmd hp hev) 1
    _ = step ({ s with events := .coreTurn :: rest }.accept v) := runSteps_one _
    _ = exec i { s with latch := v, phase := .busy, done := false, events := rest } :=
      step_of_latched rfl (.inr ⟨rest, rfl⟩) (decodeCommand_of_encode hwf henc)

end Sys2Proof.Machine

/-! ## Field arithmetic (40_field_arithmetic.md) -/

namespace Sys2Proof.Machine

/-! ### Linear functions of a byte

A byte is the XOR of powers of x (rule R140), so two functions that are linear over XOR are equal when they agree on the
eight powers. -/

/-- Taking its highest bit from a byte leaves the lower ones. -/
theorem getLsbD_xor_twoPow_eq_false {a : Byte} {k : Nat} (hk : a.getLsbD k = true)
    (ha : ∀ i, k < i → a.getLsbD i = false) (i : Nat) (hi : k ≤ i) : (a ^^^ BitVec.twoPow 8 k).getLsbD i = false := by
  rw [BitVec.getLsbD_xor, BitVec.getLsbD_twoPow]
  rcases Nat.eq_or_lt_of_le hi with rfl | hlt
  · simp [hk, BitVec.lt_of_getLsbD hk]
  · simp [ha i hlt, Nat.ne_of_lt hlt]

/-- A property of the powers of x that XOR keeps holds of every byte, by induction on the number of its low bits. -/
theorem byte_induction {P : Byte → Prop} (power : ∀ i < 8, P (BitVec.twoPow 8 i)) (xor : ∀ a b, P a → P b → P (a ^^^ b))
    (a : Byte) : P a := by
  have hlow (k : Nat) : ∀ a : Byte, (∀ i, k ≤ i → a.getLsbD i = false) → P a := by
    induction k with
    | zero =>
      intro a ha
      have hzero : a = BitVec.twoPow 8 0 ^^^ BitVec.twoPow 8 0 :=
        BitVec.eq_of_getLsbD_eq fun i _ => by simp [ha i (Nat.zero_le i)]
      exact hzero ▸ xor _ _ (power 0 (by decide)) (power 0 (by decide))
    | succ k ih =>
      intro a ha
      cases hk : a.getLsbD k with
      | false => exact ih a fun i hi => (Nat.eq_or_lt_of_le hi).elim (fun h => h ▸ hk) (ha i)
      | true =>
        have hrest : P (a ^^^ BitVec.twoPow 8 k) := ih _ (getLsbD_xor_twoPow_eq_false hk ha)
        have hsplit : a = (a ^^^ BitVec.twoPow 8 k) ^^^ BitVec.twoPow 8 k := by
          rw [BitVec.xor_assoc, BitVec.xor_self, BitVec.xor_zero]
        exact hsplit ▸ xor _ _ hrest (power k (BitVec.lt_of_getLsbD hk))
  exact hlow 8 a fun i hi => BitVec.getLsbD_of_ge a i hi

/-- The function is linear over XOR, the addition of the field (rule R140). -/
def XorLinear {α : Type} [XorOp α] (f : Byte → α) : Prop := ∀ a b, f (a ^^^ b) = f a ^^^ f b

theorem XorLinear.ext {α : Type} [XorOp α] {f g : Byte → α} (hf : XorLinear f) (hg : XorLinear g)
    (h : ∀ i : Fin 8, f (BitVec.twoPow 8 i) = g (BitVec.twoPow 8 i)) (a : Byte) : f a = g a := by
  refine byte_induction (P := fun a => f a = g a) (fun i hi => h ⟨i, hi⟩) (fun a b ha hb => ?_) a
  rw [hf, hg, ha, hb]

theorem xtime_iterate_xor (n : Nat) : XorLinear xtime^[n] := by
  intro a b
  induction n with
  | zero => rfl
  | succ n ih => simp only [Function.iterate_succ_apply', ih, xtime_xor]

/-! ### `isBitSet` and `xtime` on numbers (rules R141 and R142) -/

theorem isBitSet_iff_testBit (a : Byte) (i : Nat) : isBitSet a i = true ↔ i < 8 ∧ a.toNat.testBit i = true := by
  rw [isBitSet, Bool.and_eq_true, decide_eq_true_iff, BitVec.testBit_toNat]

theorem isBitSet_of_lt (a : Byte) {i : Nat} (hi : i < 8) : isBitSet a i = a.toNat.testBit i := by
  rw [isBitSet, decide_eq_true hi, Bool.true_and, BitVec.testBit_toNat]

/-- The reduction by 0x11B clears bit 8 of a polynomial of degree 8. -/
theorem xor_reduction_lt {n : Nat} (hlo : 256 ≤ n) (hhi : n < 512) : n ^^^ 0x11B < 256 := by
  have hdiv : n / 2 ^ 8 = 1 := by omega
  have hzero : (n ^^^ 0x11B) / 2 ^ 8 = 0 := by rw [Nat.xor_div_two_pow, hdiv]; rfl
  omega

theorem toNat_xtime (a : Byte) :
    (xtime a).toNat = if 2 * a.toNat < 256 then 2 * a.toNat else (2 * a.toNat) ^^^ 0x11B := by
  have ha := a.isLt
  have hshift : (a <<< 1).toNat = 2 * a.toNat % 256 := by
    rw [BitVec.toNat_shiftLeft, Nat.shiftLeft_eq, Nat.mul_comm]
  have hbit : a.getLsbD 7 = decide (128 ≤ a.toNat) := BitVec.msb_eq_decide a
  rw [xtime, BitVec.toNat_xor, hshift, hbit]
  by_cases h : 2 * a.toNat < 256
  · rw [if_pos h, decide_eq_false (by omega), Nat.mod_eq_of_lt h]
    exact Nat.xor_zero _
  · rw [if_neg h, decide_eq_true (by omega)]
    calc 2 * a.toNat % 256 ^^^ 0x1B
        = (2 * a.toNat ^^^ 0x11B) % 2 ^ 8 := (Nat.xor_mod_two_pow (b := 0x11B) (n := 8)).symm
      _ = 2 * a.toNat ^^^ 0x11B := Nat.mod_eq_of_lt (xor_reduction_lt (by omega) (by omega))

/-! ### The product of polynomials (rules R140 and R143) -/

/-- Adding `c` on a condition is linear in the condition and in what it is added to. -/
theorem ite_xor_xor (p q c : Nat) (a b : Bool) : (if (a ^^ b) = true then (p ^^^ q) ^^^ c else p ^^^ q) =
    (if a = true then p ^^^ c else p) ^^^ (if b = true then q ^^^ c else q) := by
  cases a <;> cases b
  · rfl
  · exact Nat.xor_assoc p q c
  · exact Nat.xor_right_comm p q c
  · simp [Nat.xor_assoc, Nat.xor_left_comm c]

/-- The sum of the partial products of the low `n` bits of `a`: what `polyMul` has after `n` passes. -/
def partialProduct (a b : Nat) : Nat → Nat
  | 0 => 0
  | n + 1 => if a.testBit n then partialProduct a b n ^^^ (b <<< n) else partialProduct a b n

theorem polyMul_eq_partialProduct (a b : Nat) : polyMul a b = partialProduct a b 8 := rfl

theorem partialProduct_xor_left (a a' b n : Nat) :
    partialProduct (a ^^^ a') b n = partialProduct a b n ^^^ partialProduct a' b n := by
  induction n with
  | zero => exact (Nat.xor_self 0).symm
  | succ n ih =>
    simp only [partialProduct, Nat.testBit_xor, ih]
    exact ite_xor_xor _ _ _ _ _

theorem polyMod_zero : polyMod 0 = 0 := by decide

/-- The remainder modulo 0x11B is linear: each pass of `polyMod` is. -/
theorem polyMod_xor (p q : Nat) : polyMod (p ^^^ q) = polyMod p ^^^ polyMod q := by
  refine List.foldl_hom₂ _ (· ^^^ ·) _ _ _ p q fun p q d => ?_
  rw [Nat.testBit_xor]
  exact (ite_xor_xor _ _ _ _ _).symm

/-- Multiplying by x and reducing, `i` times, is multiplying by x^i and then reducing. -/
theorem polyMod_shiftLeft (b : Byte) {i : Nat} (hi : i < 8) : polyMod (b.toNat <<< i) = (xtime^[i] b).toNat := by
  have hpower : ∀ i j : Fin 8, polyMod ((BitVec.twoPow 8 j).toNat <<< i.val) = (xtime^[i] (BitVec.twoPow 8 j)).toNat := by
    decide
  refine XorLinear.ext (f := fun b => polyMod (b.toNat <<< i)) (g := fun b => (xtime^[i] b).toNat) ?_ ?_ (hpower ⟨i, hi⟩) b
  · intro a b
    simp only [BitVec.toNat_xor, Nat.shiftLeft_xor_distrib, polyMod_xor]
  · intro a b
    simp only [xtime_iterate_xor i a b, BitVec.toNat_xor]

/-- The loop of rule R143 after `n` passes: the accumulator is the remainder of the partial products so far, and the other
byte is `b * x^n`. -/
theorem foldl_mulStep (a b : Byte) {n : Nat} (hn : n ≤ 8) :
    ((List.range n).foldl (mulStep a) (0x00, b)).1.toNat = polyMod (partialProduct a.toNat b.toNat n) ∧
    ((List.range n).foldl (mulStep a) (0x00, b)).2 = xtime^[n] b := by
  induction n with
  | zero => exact ⟨polyMod_zero.symm, rfl⟩
  | succ n ih =>
    obtain ⟨hacc, ht⟩ := ih (Nat.le_of_succ_le hn)
    rw [List.range_succ, List.foldl_append, List.foldl_cons, List.foldl_nil]
    simp only [mulStep, partialProduct, isBitSet_of_lt a hn, ht, Function.iterate_succ_apply', and_true]
    cases a.toNat.testBit n
    · exact hacc
    · simp only [if_true]
      rw [BitVec.toNat_xor, hacc, polyMod_xor, polyMod_shiftLeft b hn]

/-- `mul` is the product of the two polynomials modulo 0x11B (rule R143). -/
theorem toNat_mul (a b : Byte) : (mul a b).toNat = polyMod (polyMul a.toNat b.toNat) := (foldl_mulStep a b le_rfl).1

/-! ### The laws of `mul` (rule R144) -/

theorem mul_xor_left (a a' b : Byte) : mul (a ^^^ a') b = mul a b ^^^ mul a' b := by
  refine BitVec.eq_of_toNat_eq ?_
  simp only [BitVec.toNat_xor, toNat_mul, polyMul_eq_partialProduct, partialProduct_xor_left, polyMod_xor]

theorem xorLinear_mul_left (b : Byte) : XorLinear (mul · b) := fun a a' => mul_xor_left a a' b

/-- The product with a power of x. -/
theorem mul_twoPow (i : Fin 8) (b : Byte) : mul (BitVec.twoPow 8 i) b = xtime^[i] b := by
  have hpower : ∀ i j : Fin 8, mul (BitVec.twoPow 8 i) (BitVec.twoPow 8 j) = xtime^[i] (BitVec.twoPow 8 j) := by decide
  exact XorLinear.ext (mul_xor _) (xtime_iterate_xor i) (hpower i) b

protected theorem mul_comm (a b : Byte) : mul a b = mul b a := by
  have hpower : ∀ i j : Fin 8,
      mul (BitVec.twoPow 8 i) (BitVec.twoPow 8 j) = mul (BitVec.twoPow 8 j) (BitVec.twoPow 8 i) := by decide
  refine XorLinear.ext (xorLinear_mul_left b) (mul_xor b) (fun i => ?_) a
  exact XorLinear.ext (mul_xor _) (xorLinear_mul_left _) (hpower i) b

protected theorem mul_zero (a : Byte) : mul a 0x00 = 0x00 := by
  simpa using mul_xor a 0x00 0x00

protected theorem one_mul (a : Byte) : mul 0x01 a = a := mul_twoPow 0 a

protected theorem mul_one (a : Byte) : mul a 0x01 = a := (Machine.mul_comm a 0x01).trans (Machine.one_mul a)

theorem mul_two_eq_xtime (a : Byte) : mul a 0x02 = xtime a := (Machine.mul_comm a 0x02).trans (mul_twoPow 1 a)

/-- Multiplying by x commutes with multiplying by `b`. -/
theorem mul_xtime_left (b : Byte) : Function.Semiconj (mul · b) xtime xtime := by
  intro a
  have hright (i : Fin 8) : mul (BitVec.twoPow 8 i) (xtime a) = xtime (mul (BitVec.twoPow 8 i) a) := by
    rw [mul_twoPow, mul_twoPow, ← Function.iterate_succ_apply, Function.iterate_succ_apply']
  have hlinear : XorLinear fun b => xtime (mul b a) := fun b b' => by simp only [mul_xor_left, xtime_xor]
  calc mul (xtime a) b
      = mul b (xtime a) := Machine.mul_comm _ _
    _ = xtime (mul b a) := XorLinear.ext (xorLinear_mul_left _) hlinear hright b
    _ = xtime (mul a b) := congrArg xtime (Machine.mul_comm _ _)

protected theorem mul_assoc (a b c : Byte) : mul (mul a b) c = mul a (mul b c) := by
  have hpower (i : Fin 8) : mul (mul (BitVec.twoPow 8 i) b) c = mul (BitVec.twoPow 8 i) (mul b c) := by
    rw [mul_twoPow, mul_twoPow]
    exact (mul_xtime_left c).iterate_right i b
  have hlinear : XorLinear fun a => mul (mul a b) c := fun a a' => by simp only [mul_xor_left]
  exact XorLinear.ext hlinear (xorLinear_mul_left _) hpower a

/-! ### The inverse (rules R145 and R146) -/

/-- The extended GCD gives an inverse, by its run on each of the 255 nonzero bytes (log 6). -/
theorem mul_inv_self : ∀ a : Byte, a ≠ 0x00 → mul a (inv a) = 0x01 := by decide +kernel

/-- A field inverse is unique, because `mul` is associative and commutative. -/
theorem eq_inv_of_mul_eq_one {a b : Byte} (ha : a ≠ 0x00) (h : mul a b = 0x01) : b = inv a := by
  calc b = mul (mul a (inv a)) b := by rw [mul_inv_self a ha, Machine.one_mul]
    _ = mul (inv a) (mul a b) := by rw [Machine.mul_comm a, Machine.mul_assoc]
    _ = inv a := by rw [h, Machine.mul_one]

theorem inv_ne_zero_of_ne_zero {a : Byte} (ha : a ≠ 0x00) : inv a ≠ 0x00 := by
  intro hinv
  have hone := mul_inv_self a ha
  rw [hinv, Machine.mul_zero] at hone
  exact absurd hone (by decide)

theorem inv_inv_eq (a : Byte) : inv (inv a) = a := by
  by_cases ha : a = 0x00
  · rw [ha]; rfl
  · have hcancel : mul (inv a) a = 0x01 := (Machine.mul_comm _ _).trans (mul_inv_self a ha)
    exact (eq_inv_of_mul_eq_one (inv_ne_zero_of_ne_zero ha) hcancel).symm

/-! ### The field commands (rules R150 to R153) -/

/-- Settles O15: the loop's invariant gives the remainder of the product, and the laws of `mul` the corner cases. -/
theorem gfMulIsPolynomialProduct : Obligations.GfMulIsPolynomialProduct := by
  unfold Obligations.GfMulIsPolynomialProduct
  refine ⟨decodeCommand_of_encode rfl rfl, fun s => ⟨mul s.gfA s.gfB, rfl, rfl, toNat_mul _ _, ?zero, ?one, ?two,
    Machine.mul_comm _ _, ?vector⟩⟩
  case zero =>
    rintro (h | h) <;> rw [h]
    · rw [Machine.mul_comm, Machine.mul_zero]
    · exact Machine.mul_zero _
  case one => intro h; rw [h, Machine.mul_one]
  case two => intro h; rw [h, mul_two_eq_xtime]
  case vector => intro ha hb; rw [ha, hb]; rfl

/-- Settles O16: `mul` is linear in each operand, so its laws hold because they hold of the powers of x. -/
theorem mulLaws : Obligations.MulLaws := by
  unfold Obligations.MulLaws
  exact ⟨Machine.mul_comm, fun a => ⟨Machine.mul_one a, Machine.mul_zero a, mul_two_eq_xtime a⟩⟩

/-- Settles O17: the extended GCD gives an inverse, and the laws of `mul` make it the only one. -/
theorem inverseIsTheUniqueFieldInverse : Obligations.InverseIsTheUniqueFieldInverse := by
  unfold Obligations.InverseIsTheUniqueFieldInverse
  refine ⟨fun a b ha => ⟨eq_inv_of_mul_eq_one ha, ?_⟩, rfl, inv_inv_eq⟩
  rintro rfl
  exact mul_inv_self a ha

/-- Settles O13: the bit test is that of the number. -/
theorem gfBittestResult : Obligations.GfBittestResult := by
  unfold Obligations.GfBittestResult
  refine ⟨decodeCommand_of_encode rfl rfl, fun s => ?value, fun s ha hb => ⟨_, rfl, ?vector⟩⟩
  case value =>
    simp only [← isBitSet_iff_testBit]
    rfl
  case vector =>
    change (if isBitSet s.gfA s.gfB.toNat then 0x01 else 0x00) = (0x01 : Byte)
    rw [ha, hb]; rfl

/-- Settles O14: the width drops bit 7, and the number is 2a with its bit 8 reduced. -/
theorem gfXtimeResult : Obligations.GfXtimeResult := by
  unfold Obligations.GfXtimeResult
  refine ⟨decodeCommand_of_encode rfl rfl, fun s => ⟨xtime s.gfA, rfl, ?formula, toNat_xtime _⟩, fun s => ⟨_, rfl, ?corners⟩⟩
  case formula => rw [show (0xFF : Byte) = BitVec.allOnes 8 from rfl, BitVec.and_allOnes]; rfl
  case corners =>
    change (_ → xtime s.gfA = _) ∧ (_ → xtime s.gfA = _) ∧ (_ → xtime s.gfA = _) ∧ (_ → xtime s.gfA = _)
    refine ⟨?_, ?_, ?_, ?_⟩ <;> (intro h; rw [h]; rfl)

/-- Settles O18: the byte is `inv` of GF_A. -/
theorem gfInvResult : Obligations.GfInvResult := by
  unfold Obligations.GfInvResult
  refine ⟨decodeCommand_of_encode rfl rfl, fun s => ⟨inv s.gfA, rfl, ?zero, mul_inv_self _, ?one, ?vector⟩⟩
  all_goals intro h; rw [h]; rfl

end Sys2Proof.Machine

/-! ## The S-box and its inverse (41_sbox.md) -/

namespace Sys2Proof.Machine

/-! ### Rotations of a byte (rule R170) -/

theorem getLsbD_rotl8 (v : Byte) {n i : Nat} (hn : n < 8) (hi : i < 8) :
    (rotl8 v n).getLsbD i = v.getLsbD ((i + (8 - n)) % 8) := by
  have hrot : rotl8 v n = v.rotateLeft n := (BitVec.rotateLeft_eq_rotateLeftAux_of_lt hn).symm
  rw [hrot, BitVec.getLsbD_rotateLeft_of_le hn]
  by_cases hin : i < n
  · rw [decide_eq_true hin, show (i + (8 - n)) % 8 = 8 - n + i by omega]; rfl
  · rw [decide_eq_false hin, decide_eq_true hi, show (i + (8 - n)) % 8 = i - n by omega]; rfl

theorem rotl8_xor (a b : Byte) {n : Nat} (hn : n < 8) : rotl8 (a ^^^ b) n = rotl8 a n ^^^ rotl8 b n :=
  BitVec.eq_of_getLsbD_eq fun i hi => by simp only [BitVec.getLsbD_xor, getLsbD_rotl8 _ hn hi]

/-! ### The affine transforms (rules R170 and R172)

Each is a sum of rotations, which is linear, and a constant. -/

/-- The sum of rotations of rule R170. -/
def affineLinear (b : Byte) : Byte := b ^^^ rotl8 b 1 ^^^ rotl8 b 2 ^^^ rotl8 b 3 ^^^ rotl8 b 4

/-- The sum of rotations of rule R172. -/
def invAffineLinear (s : Byte) : Byte := rotl8 s 1 ^^^ rotl8 s 3 ^^^ rotl8 s 6

theorem affine_eq_affineLinear_xor (b : Byte) : affine b = affineLinear b ^^^ 0x63 := rfl

theorem invAffine_eq_invAffineLinear_xor (s : Byte) : invAffine s = invAffineLinear s ^^^ 0x05 := rfl

theorem affineLinear_xor : XorLinear affineLinear := by
  intro a b
  simp (disch := decide) only [affineLinear, rotl8_xor]
  ac_rfl

theorem invAffineLinear_xor : XorLinear invAffineLinear := by
  intro a b
  simp (disch := decide) only [invAffineLinear, rotl8_xor]
  ac_rfl

/-- The two sums undo each other: they do on the powers of x. -/
theorem invAffineLinear_affineLinear (b : Byte) : invAffineLinear (affineLinear b) = b := by
  have hcomp : XorLinear fun b => invAffineLinear (affineLinear b) := fun a b => by
    simp only [affineLinear_xor a b, invAffineLinear_xor (affineLinear a) (affineLinear b)]
  exact XorLinear.ext (g := id) hcomp (fun _ _ => rfl) (by decide) b

/-- `affine`'s constant 0x63 becomes 0x05, which cancels that of `invAffine`. -/
theorem invAffine_affine : Function.LeftInverse invAffine affine := by
  intro b
  calc invAffine (affine b)
      = invAffineLinear (affineLinear b ^^^ 0x63) ^^^ 0x05 := by
        rw [affine_eq_affineLinear_xor, invAffine_eq_invAffineLinear_xor]
    _ = b ^^^ (invAffineLinear 0x63 ^^^ 0x05) := by
        rw [invAffineLinear_xor, invAffineLinear_affineLinear, BitVec.xor_assoc]
    _ = b := BitVec.xor_zero

/-- On the 256 bytes a left inverse is an inverse. -/
theorem affine_invAffine : Function.RightInverse invAffine affine :=
  invAffine_affine.rightInverse_of_surjective (Finite.surjective_of_injective invAffine_affine.injective)

/-- Settles O20: a rotation moves the bits, and the sums of rotations undo each other. -/
theorem affineBitSelections : Obligations.AffineBitSelections := by
  unfold Obligations.AffineBitSelections
  refine ⟨fun b i => ?affine, fun b i => ?invAffine, invAffine_affine⟩
  case affine =>
    simp (disch := omega) only [affine, BitVec.getLsbD_xor, getLsbD_rotl8, Nat.reduceSub, Bool.xor_assoc, Bool.xor_comm, Bool.xor_left_comm]
  case invAffine =>
    simp (disch := omega) only [invAffine, BitVec.getLsbD_xor, getLsbD_rotl8, Nat.reduceSub]

/-! ### The S-box round trip (rule R174) -/

/-- GF_INVSBOX's function undoes the two halves of GF_SBOX's in the other order (rules R171 and R173). -/
theorem invSbox_sbox (x : Byte) : invSbox (sbox x) = x := by
  rw [invSbox, sbox, invAffine_affine, inv_inv_eq]

theorem sbox_invSbox (x : Byte) : sbox (invSbox x) = x := by
  rw [sbox, invSbox, inv_inv_eq, affine_invAffine]

/-- Rule R174's derivation, by inspection of the 256 values. -/
theorem sbox_ne_self_and_ne_not : ∀ x : Byte, sbox x ≠ x ∧ sbox x ≠ ~~~x := by decide +kernel

/-- Settles O21: `affine` and `inv` are each undone. -/
theorem sboxRoundTrip : Obligations.SboxRoundTrip := by
  unfold Obligations.SboxRoundTrip
  exact ⟨fun x => ⟨invSbox_sbox x, sbox_invSbox x⟩,
    Function.bijective_iff_has_inverse.mpr ⟨invSbox, invSbox_sbox, sbox_invSbox⟩, sbox_ne_self_and_ne_not⟩

/-! ### The tables and the commands (rules R175, R180 and R181) -/

/-- The table of 41_sbox.md section 2.1 is `sbox`, entry by entry (rule R175). -/
theorem sboxTable_eq_sbox : ∀ a : Byte, sboxTable[a.toNat]? = some (sbox a) := by decide +kernel

/-- The table of 41_sbox.md section 2.2 is `invSbox`, entry by entry (rule R175). -/
theorem invSboxTable_eq_invSbox : ∀ a : Byte, invSboxTable[a.toNat]? = some (invSbox a) := by decide +kernel

/-- Settles O19: the bytes are `sbox` and `invSbox` of GF_A, which the tables hold. -/
theorem sboxCommandsGiveTheTables : Obligations.SboxCommandsGiveTheTables := by
  unfold Obligations.SboxCommandsGiveTheTables
  refine ⟨decodeCommand_of_encode rfl rfl, decodeCommand_of_encode rfl rfl, fun s => ⟨?sbox, ?invSbox⟩⟩
  case sbox => exact ⟨sbox s.gfA, rfl, sboxTable_eq_sbox s.gfA⟩
  case invSbox => exact ⟨invSbox s.gfA, rfl, invSboxTable_eq_invSbox s.gfA⟩

end Sys2Proof.Machine

/-! ## The key schedule and its cursor (42_key_schedule.md) -/

namespace Sys2Proof.Machine

variable {s t : State} {i : Instr}

/-! ### The word functions (rules R192 to R194) -/

theorem getLsbD_rotWord (v : Word) {i : Nat} (hi : i < 32) : (rotWord v).getLsbD i = v.getLsbD ((i + 24) % 32) := by
  have hrot : rotWord v = v.rotateLeft 8 := (BitVec.rotateLeft_eq_rotateLeftAux_of_lt (by decide)).symm
  rw [hrot, BitVec.getLsbD_rotateLeft_of_le (by decide)]
  by_cases h : i < 8
  · rw [decide_eq_true h, show (i + 24) % 32 = 24 + i by omega]; rfl
  · rw [decide_eq_false h, decide_eq_true hi, show (i + 24) % 32 = i - 8 by omega]; rfl

/-- Byte `t` of the rotated word is the next byte of the word (rule R192). -/
theorem byteOf_rotWord (v : Word) (t : Fin 4) : byteOf (rotWord v) t = byteOf v (t + 1) := by
  refine BitVec.eq_of_getLsbD_eq fun i hi => ?_
  have hidx : (24 - 8 * t.val + i + 24) % 32 = 24 - 8 * (t + 1).val + i := by
    match t with
    | 0 | 1 | 2 | 3 => simp; omega
  rw [getLsbD_byteOf, getLsbD_byteOf, getLsbD_rotWord v (by omega), hidx]

theorem rotWord_word32 (w0 w1 w2 w3 : Byte) : rotWord (word32 w0 w1 w2 w3) = word32 w1 w2 w3 w0 := by
  refine word_ext fun r => ?_
  rw [byteOf_rotWord]
  match r with
  | 0 | 1 | 2 | 3 => simp

theorem subWord_word32 (w0 w1 w2 w3 : Byte) :
    subWord (word32 w0 w1 w2 w3) = word32 (sbox w0) (sbox w1) (sbox w2) (sbox w3) := by
  simp [subWord]

/-- Each round constant is `xtime` of the one before (rule R194). -/
theorem rcon_add_two (p : Nat) : rcon (p + 2) = word32 (xtime (byteOf (rcon (p + 1)) 0)) 0x00 0x00 0x00 := by
  simp [rcon, xtimePow]

/-- Settles O22: the bytes are moved and substituted one by one, and the table is the recurrence's first ten values. -/
theorem keyWordFunctions : Obligations.KeyWordFunctions := by
  unfold Obligations.KeyWordFunctions
  exact ⟨rotWord_word32, subWord_word32, rcon_add_two, by decide⟩

/-! ### The expanded key (rules R50 and R195) -/

/-- The first loop of rule R195 after `n` passes: `n` key words, then zeros. -/
theorem wordAt_copyKey (key : KeyRegs) {n : Nat} (hn : n ≤ 60) (j : Nat) :
    wordAt (copyKey key n) j = if j < n then key.toList.getD j 0 else 0 := by
  induction n with
  | zero => exact wordAt_cleared j
  | succ n ih =>
    have hstep : copyKey key (n + 1) = setWord (copyKey key n) n (key.toList.getD n 0) := by
      simp [copyKey, List.range_succ]
    rw [hstep, wordAt_setWord _ _ _ _ hn, ih (Nat.le_of_succ_le hn)]
    rcases lt_trichotomy j n with h | h | h
    · rw [if_neg h.ne, if_pos h, if_pos (Nat.lt_succ_of_lt h)]
    · rw [if_pos h, if_pos (by omega), h]
    · rw [if_neg h.ne', if_neg (by omega), if_neg (by omega)]

/-- The main loop of rule R195 after `n` passes. -/
def expandFrom (nk : Nat) (w : Schedule) (n : Nat) : Schedule := (List.range' nk n).foldl (expandStep nk) w

theorem keyExpansion_eq_expandFrom (key : KeyRegs) (nk : Nat) :
    keyExpansion key nk = expandFrom nk (copyKey key nk) (4 * (nk + 6 + 1) - nk) := rfl

theorem expandFrom_succ (nk : Nat) (w : Schedule) (n : Nat) :
    expandFrom nk w (n + 1) = expandStep nk (expandFrom nk w n) (nk + n) := by
  simp [expandFrom, List.range'_1_concat]

/-- A pass of the loop writes one word. -/
theorem wordAt_expandStep (nk : Nat) (w : Schedule) {i : Nat} (hi : i < 60) (j : Nat) :
    wordAt (expandStep nk w i) j =
      if j = i then wordAt w (i - nk) ^^^ expandTemp nk i (wordAt w (i - 1)) else wordAt w j :=
  wordAt_setWord w i j _ hi

/-- The words that no pass has reached are as they were. -/
theorem wordAt_expandFrom_of_outside (nk : Nat) (w : Schedule) {n j : Nat} (hn : nk + n ≤ 60) (hj : j < nk ∨ nk + n ≤ j) :
    wordAt (expandFrom nk w n) j = wordAt w j := by
  induction n with
  | zero => rfl
  | succ n ih =>
    rw [expandFrom_succ, wordAt_expandStep nk _ (by omega), if_neg (by omega), ih (by omega) (by omega)]

/-- The words that the loop has reached obey the recurrence: a pass reads words behind the one it writes, and no later pass
writes those. -/
theorem wordAt_expandFrom {nk : Nat} (hnk : 0 < nk) (w : Schedule) {n j : Nat} (hn : nk + n ≤ 60) (hlo : nk ≤ j)
    (hhi : j < nk + n) :
    wordAt (expandFrom nk w n) j =
      wordAt (expandFrom nk w n) (j - nk) ^^^ expandTemp nk j (wordAt (expandFrom nk w n) (j - 1)) := by
  induction n with
  | zero => omega
  | succ n ih =>
    simp only [expandFrom_succ, wordAt_expandStep nk _ (show nk + n < 60 by omega)]
    rw [if_neg (show j - nk ≠ nk + n by omega), if_neg (show j - 1 ≠ nk + n by omega)]
    by_cases hj : j = nk + n
    · rw [if_pos hj, hj]
    · rw [if_neg hj, ih (by omega) (by omega)]

/-- The key words of the expanded key (rule R195). -/
theorem getElem?_keyExpansion_key (key : KeyRegs) {nk i : Nat} (hnk : nk ≤ 8) (hi : i < nk) :
    (keyExpansion key nk)[i]? = key[i]? := by
  rw [getElem?_eq_wordAt _ (by omega), keyExpansion_eq_expandFrom,
    wordAt_expandFrom_of_outside _ _ (by omega) (.inl hi), wordAt_copyKey _ (by omega), if_pos hi]
  have : i < 8 := by omega
  simp [this]

/-- The words after the key words, each from the word before it and the word `nk` before it (rule R195). -/
theorem wordAt_keyExpansion (key : KeyRegs) {nk i : Nat} (hpos : 0 < nk) (hnk : nk ≤ 8) (hlo : nk ≤ i)
    (hhi : i < 4 * (nk + 6 + 1)) :
    wordAt (keyExpansion key nk) i =
      wordAt (keyExpansion key nk) (i - nk) ^^^ expandTemp nk i (wordAt (keyExpansion key nk) (i - 1)) :=
  wordAt_expandFrom hpos _ (by omega) hlo (by omega)

/-- Past the expanded key the memory is cleared (rule R195). -/
theorem wordAt_keyExpansion_past (key : KeyRegs) {nk i : Nat} (hnk : nk ≤ 8) (hi : 4 * (nk + 6 + 1) ≤ i) :
    wordAt (keyExpansion key nk) i = 0 := by
  rw [keyExpansion_eq_expandFrom, wordAt_expandFrom_of_outside _ _ (by omega) (.inr (by omega)),
    wordAt_copyKey _ (by omega), if_neg (by omega)]

theorem exec_keyExpand (hlen : validKeyLen s.keyLen.toNat = true) :
    exec .keyExpand s = .next (s.installSchedule (s.keyLen.toNat / 4)).complete := if_pos hlen

/-- Settles O23: the loops of the expansion write each word once, from words they no longer change. -/
theorem keyExpandBuildsTheSchedule : Obligations.KeyExpandBuildsTheSchedule := by
  unfold Obligations.KeyExpandBuildsTheSchedule
  intro s hlen
  have hvalid : validKeyLen s.keyLen.toNat = true := by simpa [validKeyLen, or_assoc] using hlen
  have hpos : 0 < s.keyLen.toNat / 4 := by omega
  have hnk : s.keyLen.toNat / 4 ≤ 8 := by omega
  refine ⟨_, s.keyLen.toNat / 4, _, exec_keyExpand hvalid, by omega, rfl, rfl, ?keyWords, ?recurrence, ?zeros⟩
  case keyWords => exact fun i hi => getElem?_keyExpansion_key s.key hnk hi
  case recurrence =>
    intro i hlo hhi
    have hw : i < 60 := by omega
    refine ⟨_, _, getElem?_eq_wordAt _ (by omega), getElem?_eq_wordAt _ (by omega), ?_⟩
    exact (getElem?_eq_wordAt _ hw).trans (congrArg some (wordAt_keyExpansion s.key hpos hnk hlo hhi))
  case zeros =>
    intro i hi hw
    exact (getElem?_eq_wordAt _ hw).trans (congrArg some (wordAt_keyExpansion_past s.key hnk hi))

/-! ### The errors of the commands (rules R293 to R296 and R299) -/

/-- The check of rule R294 comes first; then the body makes the command's own check. -/
theorem withSchedule_of_error {body : Result} {check : Option ErrCode} {code : ErrCode}
    (h : (if s.keyValid = false then some .noKey else check) = some code)
    (hbody : check = some code → body = .next (s.raiseError code)) :
    s.withSchedule body = .next (s.raiseError code) := by
  cases hk : s.keyValid with
  | false =>
    rw [if_pos hk, Option.some.injEq] at h
    rw [withSchedule_of_noKey s body hk, h]
  | true =>
    rw [if_neg (by simp [hk])] at h
    exact (withSchedule_of_valid s body hk).trans (hbody h)

/-- A command whose check fails ends with that error and nothing else (rule R298). -/
theorem exec_of_commandError {code : ErrCode} (h : commandError s i = some code) : exec i s = .next (s.raiseError code) := by
  cases i with
  | keyExpand =>
    obtain ⟨hlen, ⟨⟩⟩ := Option.ite_none_left_eq_some.mp h
    exact if_neg (by simpa [validKeyLen, or_assoc] using hlen)
  | rkResetFwd | rkResetBwd | encBlock | decBlock => exact withSchedule_of_error h nofun
  | rkNextEnc =>
    refine withSchedule_of_error h fun hcheck => ?_
    obtain ⟨hcur, ⟨⟩⟩ := Option.ite_none_right_eq_some.mp hcheck
    exact if_pos hcur
  | rkNextDec =>
    refine withSchedule_of_error h fun hcheck => ?_
    obtain ⟨hcur, ⟨⟩⟩ := Option.ite_none_right_eq_some.mp hcheck
    exact if_pos (BitVec.eq_of_toNat_eq hcur)
  | rkLoad n =>
    refine withSchedule_of_error h fun hcheck => ?_
    obtain ⟨hn, ⟨⟩⟩ := Option.ite_none_right_eq_some.mp hcheck
    exact if_pos hn
  | _ => cases h

/-- The commands that need a schedule fail without one (rule R294). -/
theorem exec_of_noKey (hk : s.keyValid = false)
    (hi : i ∈ [Instr.rkResetFwd, .rkResetBwd, .rkNextEnc, .rkNextDec, .encBlock, .decBlock] ∨ ∃ n, i = .rkLoad n) :
    exec i s = .next (s.raiseError .noKey) := by
  refine exec_of_commandError ?_
  obtain hi | ⟨n, rfl⟩ := hi
  · simp only [List.mem_cons, List.not_mem_nil, or_false] at hi
    obtain rfl | rfl | rfl | rfl | rfl | rfl := hi <;> exact if_pos hk
  · exact if_pos hk

/-- KEY_VALID = 1 needs a legal key length (rule R37). -/
theorem State.ScheduleInv.validKeyLen (hs : s.ScheduleInv) (hv : s.keyValid = true) :
    Machine.validKeyLen s.keyLen.toNat = true := by
  rw [State.ScheduleInv, if_pos hv] at hs
  exact hs.1

/-- Settles O24: the length fails the command's check, and with it KEY_VALID = 1 would contradict the invariant. -/
theorem keyExpandRejectsOtherLengths : Obligations.KeyExpandRejectsOtherLengths := by
  unfold Obligations.KeyExpandRejectsOtherLengths
  refine ⟨decodeCommand_of_encode rfl rfl, fun s h16 h24 h32 => ⟨exec_of_commandError ?error, fun hinv => ?noKey⟩⟩
  case error => simp [commandError, h16, h24, h32]
  case noKey =>
    by_contra hv
    have hlen := State.ScheduleInv.validKeyLen hinv.1 (eq_true_of_ne_false hv)
    rcases validKeyLen_cases hlen with h | h | h <;> contradiction

/-! ### Moving the cursor (rules R201 and R202) -/

theorem execAll_cons_of_exec {is : List Instr} (h : exec i s = .next t) : execAll (i :: is) s = execAll is t := by
  rw [execAll, h]

/-- A command that leaves alone what it has just made is idempotent. -/
theorem execAll_twice (h : exec i s = .next t) (hrepeat : exec i t = .next t) : execAll [i, i] s = exec i s := by
  rw [execAll_cons_of_exec h, execAll_cons_of_exec hrepeat, h]; rfl

theorem exec_rkResetFwd (hv : s.keyValid = true) : exec .rkResetFwd s = .next (s.finishCursor 0) :=
  withSchedule_of_valid s _ hv

theorem exec_rkResetBwd (hv : s.keyValid = true) : exec .rkResetBwd s = .next (s.finishCursor (s.nr + 1)) :=
  withSchedule_of_valid s _ hv

theorem toNat_sub_one {c : BitVec 4} (hc : 0 < c.toNat) : (c - 1).toNat = c.toNat - 1 := by
  bv_omega

theorem toNat_add_one {c : BitVec 4} (hc : c.toNat ≤ 14) : (c + 1).toNat = c.toNat + 1 := by
  bv_omega

/-- Settles O26: a reset command leaves KEY_VALID and NR, so a second one does what the first did. -/
theorem cursorResets : Obligations.CursorResets := by
  unfold Obligations.CursorResets
  refine ⟨decodeCommand_of_encode rfl rfl, decodeCommand_of_encode rfl rfl, fun s => ?_⟩
  have hnoKeyFwd {u : State} (hk : u.keyValid = false) := exec_of_noKey hk (i := .rkResetFwd) (.inl (by simp))
  have hnoKeyBwd {u : State} (hk : u.keyValid = false) := exec_of_noKey hk (i := .rkResetBwd) (.inl (by simp))
  refine ⟨fun hk => ⟨hnoKeyFwd hk, hnoKeyBwd hk⟩, exec_rkResetFwd,
    fun hv hnr => ⟨_, toNat_add_one hnr, exec_rkResetBwd hv⟩, ?fwdTwice, ?bwdTwice⟩
  case fwdTwice =>
    cases hk : s.keyValid with
    | false => exact execAll_twice (hnoKeyFwd hk) (hnoKeyFwd hk)
    | true => exact execAll_twice (exec_rkResetFwd hk) (exec_rkResetFwd hk)
  case bwdTwice =>
    cases hk : s.keyValid with
    | false => exact execAll_twice (hnoKeyBwd hk) (hnoKeyBwd hk)
    | true => exact execAll_twice (exec_rkResetBwd hk) (exec_rkResetBwd hk)

/-! ### Taking round keys (rules R196 and R203 to R205) -/

theorem getElem?_eq_getElem_roundKey (w : Schedule) {n : Nat} (hn : n ≤ 14) (j : Fin 4) :
    w[4 * n + j.val]? = some (roundKey w n)[j] := by
  rw [getElem?_eq_wordAt _ (by omega)]
  match j with
  | 0 | 1 | 2 | 3 => rfl

theorem exec_rkNextEnc (hv : s.keyValid = true) (hcur : s.cursor.toNat ≠ s.nr.toNat + 1) :
    exec .rkNextEnc s = .next ((s.loadRoundKey s.cursor.toNat).finishCursor (s.cursor + 1)) :=
  (withSchedule_of_valid s _ hv).trans (if_neg hcur)

theorem exec_rkNextDec (hv : s.keyValid = true) (hcur : 0 < s.cursor.toNat) :
    exec .rkNextDec s = .next ((s.loadRoundKey (s.cursor.toNat - 1)).finishCursor (s.cursor - 1)) :=
  (withSchedule_of_valid s _ hv).trans (if_neg fun h => by simp [h] at hcur)

theorem exec_rkLoad {n : Nat} (hv : s.keyValid = true) (hn : n ≤ s.nr.toNat) :
    exec (.rkLoad n) s = .next (s.loadRoundKey n).complete :=
  (withSchedule_of_valid s _ hv).trans (if_neg (Nat.not_lt.mpr hn))

/-- Settles O27: the checks of the command, and the round key at the cursor. -/
theorem rkNextEncTakesTheNextKey : Obligations.RkNextEncTakesTheNextKey := by
  unfold Obligations.RkNextEncTakesTheNextKey
  refine ⟨decodeCommand_of_encode rfl rfl, fun s => ⟨fun hk => exec_of_noKey hk ?needsKey,
    fun hv hcur => exec_of_commandError ?cursor, fun hv hnr hcur => ?taken⟩⟩
  case needsKey => exact .inl (by simp)
  case cursor => simp [commandError, hv, hcur]
  case taken =>
    exact ⟨_, exec_rkNextEnc hv (by omega), rfl, toNat_add_one (by omega), getElem?_eq_getElem_roundKey s.w (by omega)⟩

/-- Settles O28: the checks of the command, and the round key behind the cursor. -/
theorem rkNextDecTakesTheKeyBehind : Obligations.RkNextDecTakesTheKeyBehind := by
  unfold Obligations.RkNextDecTakesTheKeyBehind
  refine ⟨decodeCommand_of_encode rfl rfl, fun s => ⟨fun hk => exec_of_noKey hk ?needsKey,
    fun hv hcur => exec_of_commandError ?cursor, fun hv hcur => ?taken⟩⟩
  case needsKey => exact .inl (by simp)
  case cursor => simp [commandError, hv, hcur]
  case taken =>
    have hback : (s.cursor - 1).toNat + 1 = s.cursor.toNat := by rw [toNat_sub_one hcur]; omega
    exact ⟨_, exec_rkNextDec hv hcur, rfl, hback, getElem?_eq_getElem_roundKey s.w (by omega)⟩

/-- Settles O29: the checks of the command, and the round key of the index. -/
theorem rkLoadTakesTheIndexedKey : Obligations.RkLoadTakesTheIndexedKey := by
  unfold Obligations.RkLoadTakesTheIndexedKey
  refine fun n hn => ⟨decodeCommand_rkLoadWord n (Nat.lt_succ_of_le hn), fun s => ⟨fun hk => exec_of_noKey hk ?needsKey,
    fun hv hidx => exec_of_commandError ?index, fun hv hnr hidx => ?loaded⟩⟩
  case needsKey => exact .inr ⟨n, rfl⟩
  case index => simp [commandError, hv, hidx]
  case loaded => exact ⟨_, exec_rkLoad hv hidx, rfl, getElem?_eq_getElem_roundKey s.w (by omega)⟩

/-! ### Walks of the cursor (rules R197, R203 and R204) -/

/-- From any cursor `c`, `k + 1` RK_NEXT_ENC commands end with round key `c + k` and the cursor behind it. -/
theorem execAll_replicate_rkNextEnc (hv : s.keyValid = true) (hnr : s.nr.toNat ≤ 14) {k : Nat}
    (hk : s.cursor.toNat + k ≤ s.nr.toNat) :
    execAll (List.replicate (k + 1) .rkNextEnc) s =
      .next ((s.loadRoundKey (s.cursor.toNat + k)).finishCursor (BitVec.ofNat 4 (s.cursor.toNat + (k + 1)))) := by
  induction k generalizing s with
  | zero =>
    rw [List.replicate_succ, execAll_cons_of_exec (exec_rkNextEnc hv (by omega)), ← toNat_add_one (by omega),
      BitVec.ofNat_toNat, BitVec.setWidth_eq]
    rfl
  | succ k ih =>
    have hcur : (s.cursor + 1).toNat = s.cursor.toNat + 1 := toNat_add_one (by omega)
    have hrest := ih (s := (s.loadRoundKey s.cursor.toNat).finishCursor (s.cursor + 1)) hv hnr
      (show (s.cursor + 1).toNat + k ≤ s.nr.toNat by omega)
    rw [List.replicate_succ, execAll_cons_of_exec (exec_rkNextEnc hv (by omega)), hrest]
    simp only [State.finishCursor_cursor, hcur, Nat.add_assoc, Nat.add_comm 1]
    rfl

/-- From any cursor `c`, `k + 1` RK_NEXT_DEC commands end with round key `c - (k + 1)` and the cursor at it. -/
theorem execAll_replicate_rkNextDec (hv : s.keyValid = true) {k : Nat} (hk : k < s.cursor.toNat) :
    execAll (List.replicate (k + 1) .rkNextDec) s =
      .next ((s.loadRoundKey (s.cursor.toNat - (k + 1))).finishCursor (BitVec.ofNat 4 (s.cursor.toNat - (k + 1)))) := by
  induction k generalizing s with
  | zero =>
    rw [List.replicate_succ, execAll_cons_of_exec (exec_rkNextDec hv hk), Nat.zero_add, ← toNat_sub_one hk,
      BitVec.ofNat_toNat, BitVec.setWidth_eq]
    rfl
  | succ k ih =>
    have hcur : (s.cursor - 1).toNat = s.cursor.toNat - 1 := toNat_sub_one (by omega)
    have hrest := ih (s := (s.loadRoundKey (s.cursor.toNat - 1)).finishCursor (s.cursor - 1)) hv
      (show k < (s.cursor - 1).toNat by omega)
    rw [List.replicate_succ, execAll_cons_of_exec (exec_rkNextDec hv (by omega)), hrest]
    simp only [State.finishCursor_cursor, hcur, Nat.sub_sub, Nat.add_comm 1]
    rfl

/-- Settles O30: the walks from the two ends. -/
theorem cursorWalksTheSchedule : Obligations.CursorWalksTheSchedule := by
  unfold Obligations.CursorWalksTheSchedule
  intro s k hv hnr hpos hk
  obtain ⟨k, rfl⟩ := Nat.exists_eq_add_one.mpr hpos
  refine ⟨fun hcur => ⟨_, execAll_replicate_rkNextEnc hv hnr (by omega), ?enc⟩,
    fun hcur => ⟨_, execAll_replicate_rkNextDec hv (by omega), ?dec⟩⟩
  case enc => rw [hcur, Nat.zero_add, Nat.zero_add]; rfl
  case dec => rw [hcur]; rfl

/-- Settles O31: the key behind the new cursor is the key at the old one. -/
theorem cursorStepsUndoEachOther : Obligations.CursorStepsUndoEachOther := by
  unfold Obligations.CursorStepsUndoEachOther
  intro s hv hnr hcur
  have hsucc : (s.cursor + 1).toNat = s.cursor.toNat + 1 := toNat_add_one (by omega)
  have hback := exec_rkNextDec (s := (s.loadRoundKey s.cursor.toNat).finishCursor (s.cursor + 1)) hv
    (show 0 < (s.cursor + 1).toNat by omega)
  refine ⟨_, exec_rkNextEnc hv (by omega), hback.trans ?_⟩
  simp only [State.finishCursor_cursor, hsucc, Nat.add_sub_cancel, BitVec.add_sub_cancel]
  rfl

end Sys2Proof.Machine

/-! ## The round transforms (43_block_state.md) -/

namespace Sys2Proof.Machine

variable {i j : Instr} {f g : Cells → Cells}

/-! ### Commands that transform the cells (rules R240 to R245) -/

@[simp] theorem onCells_id (b : Block) : onCells id b = b := ofCells_cells b

/-- A transform of the cells that undoes another undoes it on the columns. -/
theorem onCells_of_leftInverse (h : Function.LeftInverse g f) (b : Block) : onCells g (onCells f b) = b := by
  rw [onCells_onCells, h.id, onCells_id]

/-- Of two commands that write STATE, the second one's block stays. -/
theorem finishBlock_finishBlock (s : State) (b d : Block) : (s.finishBlock b).finishBlock d = s.finishBlock d := rfl

/-- Writing the block that is there already is a completion. -/
theorem finishBlock_block_self (s : State) : s.finishBlock s.block = s.complete := rfl

/-- The command replaces the block by the transform of its cells, and completes. -/
def Instr.AppliesTransform (i : Instr) (f : Cells → Cells) : Prop :=
  ∀ s : State, exec i s = .next (s.finishBlock (onCells f s.block))

theorem appliesTransform_subBytes : Instr.AppliesTransform .subBytes subBytes := fun _ => rfl

theorem appliesTransform_invSubBytes : Instr.AppliesTransform .invSubBytes invSubBytes := fun _ => rfl

theorem appliesTransform_shiftRows : Instr.AppliesTransform .shiftRows shiftRows := fun _ => rfl

theorem appliesTransform_invShiftRows : Instr.AppliesTransform .invShiftRows invShiftRows := fun _ => rfl

theorem appliesTransform_mixColumns : Instr.AppliesTransform .mixColumns mixColumns := fun _ => rfl

theorem appliesTransform_invMixColumns : Instr.AppliesTransform .invMixColumns invMixColumns := fun _ => rfl

/-- A command whose transform undoes the one before it leaves nothing but the completion. -/
theorem Instr.AppliesTransform.exec_of_leftInverse (hj : Instr.AppliesTransform j g) (h : Function.LeftInverse g f)
    (s : State) : exec j (s.finishBlock (onCells f s.block)) = .next s.complete := by
  rw [hj, State.finishBlock_block, finishBlock_finishBlock, onCells_of_leftInverse h, finishBlock_block_self]

theorem Instr.AppliesTransform.execAll_pair (hi : Instr.AppliesTransform i f) (hj : Instr.AppliesTransform j g)
    (h : Function.LeftInverse g f) (s : State) : execAll [i, j] s = .next s.complete := by
  rw [execAll_cons_of_exec (hi s), execAll_cons_of_exec (hj.exec_of_leftInverse h s)]
  rfl

/-- A command given `n + 1` times applies its transform `n + 1` times. -/
theorem Instr.AppliesTransform.execAll_replicate (hi : Instr.AppliesTransform i f) (n : Nat) (s : State) :
    execAll (List.replicate (n + 1) i) s = .next (s.finishBlock (onCells f^[n + 1] s.block)) := by
  induction n generalizing s with
  | zero => exact execAll_cons_of_exec (hi s)
  | succ n ih =>
    rw [List.replicate_succ, execAll_cons_of_exec (hi s), ih, State.finishBlock_block, finishBlock_finishBlock,
      onCells_onCells]
    rfl

/-! ### SubBytes (rules R231 and R232) -/

theorem invSubBytes_subBytes : Function.LeftInverse invSubBytes subBytes := fun a => by
  funext r c
  exact invSbox_sbox (a r c)

theorem subBytes_invSubBytes : Function.LeftInverse subBytes invSubBytes := fun a => by
  funext r c
  exact sbox_invSbox (a r c)

/-- Settles O32: the cells of the new block are the S-box values, and the S-boxes undo each other. -/
theorem subBytesActsOnEveryByte : Obligations.SubBytesActsOnEveryByte := by
  unfold Obligations.SubBytesActsOnEveryByte
  refine ⟨decodeCommand_of_encode rfl rfl, decodeCommand_of_encode rfl rfl, fun s =>
    ⟨⟨_, rfl, rfl, byteOf_onCells subBytes s.block, ?vector, ?zeros,
      appliesTransform_invSubBytes.exec_of_leftInverse invSubBytes_subBytes s⟩,
    _, rfl, rfl, byteOf_onCells invSubBytes s.block, ?invVector, ?invZeros⟩⟩
  case vector | zeros | invVector | invZeros =>
    intro h
    rw [State.finishBlock_block, h]
    decide +kernel

/-! ### ShiftRows (rules R233 and R234) -/

theorem invShiftRows_shiftRows : Function.LeftInverse invShiftRows shiftRows := fun a => by
  funext r c
  exact congrArg (a r) (sub_add_cancel c r)

theorem shiftRows_invShiftRows : Function.LeftInverse shiftRows invShiftRows := fun a => by
  funext r c
  exact congrArg (a r) (add_sub_cancel_right c r)

/-- Three shifts to the left are one to the right, because a row has four bytes. -/
theorem shiftRows_iterate_three : shiftRows^[3] = invShiftRows := by
  have hcolumn : ∀ r c : Fin 4, c + r + r + r = c - r := by decide
  funext a r c
  exact congrArg (a r) (hcolumn r c)

theorem shiftRows_iterate_four : shiftRows^[4] = id := by
  rw [Function.iterate_succ, shiftRows_iterate_three, invShiftRows_shiftRows.id]

/-- Settles O33: the cells of the new block are those of the rule's column index, and repetition adds up the shifts. -/
theorem shiftRowsMovesRowBytes : Obligations.ShiftRowsMovesRowBytes := by
  unfold Obligations.ShiftRowsMovesRowBytes
  refine ⟨decodeCommand_of_encode rfl rfl, decodeCommand_of_encode rfl rfl, fun s =>
    ⟨⟨_, rfl, rfl, fun r c d hd => ?shift, ?vector⟩, ⟨_, rfl, rfl, fun r c d hd => ?invShift, ?invVector⟩, ?four, ?three⟩⟩
  case shift =>
    obtain rfl : d = c + r := Fin.ext hd
    exact byteOf_onCells shiftRows s.block r c
  case invShift =>
    obtain rfl : d = c - r := Fin.ext (by rw [hd, Fin.sub_def]; congr 1; omega)
    exact byteOf_onCells invShiftRows s.block r c
  case four =>
    rw [appliesTransform_shiftRows.execAll_replicate 3, shiftRows_iterate_four, onCells_id]
    rfl
  case three => rw [appliesTransform_shiftRows.execAll_replicate 2, shiftRows_iterate_three, appliesTransform_invShiftRows]
  case vector | invVector =>
    intro h
    rw [State.finishBlock_block, h]
    decide

/-! ### MixColumns (rules R235 and R236) -/

/-- The unit of rule R144, as `simp` spells it. -/
@[simp] theorem one_mul_byte (a : Byte) : mul 1#8 a = a := Machine.one_mul a

/-- The zero of rule R144, as `simp` spells it. -/
@[simp] theorem zero_mul_byte (a : Byte) : mul 0#8 a = 0#8 := (Machine.mul_comm _ _).trans (Machine.mul_zero a)

/-- The entries of a matrix of rules R235 and R236, as cells: `mixWith` multiplies them too. -/
def matrixCells (m : Vector (Vector Byte 4) 4) : Cells := fun r c => m[r][c]

/-- A product of two matrices applied to a column is the one applied after the other: `mul` distributes and is associative. -/
theorem mixWith_mixWith (m n : Vector (Vector Byte 4) 4) (a : Cells) (r c : Fin 4) :
    mixWith m (mixWith n a) r c =
      mul (mixWith m (matrixCells n) r 0) (a 0 c) ^^^ mul (mixWith m (matrixCells n) r 1) (a 1 c) ^^^
        mul (mixWith m (matrixCells n) r 2) (a 2 c) ^^^ mul (mixWith m (matrixCells n) r 3) (a 3 c) := by
  simp only [mixWith, matrixCells, mul_xor, mul_xor_left, Machine.mul_assoc]
  ac_rfl

/-- Matrices whose product is the identity undo each other. -/
theorem mixWith_leftInverse {m n : Vector (Vector Byte 4) 4}
    (h : ∀ r c : Fin 4, mixWith m (matrixCells n) r c = if r = c then 0x01 else 0x00) :
    Function.LeftInverse (mixWith m) (mixWith n) := by
  intro a
  funext r c
  rw [mixWith_mixWith, h, h, h, h]
  match r with
  | 0 | 1 | 2 | 3 => simp

theorem invMixColumns_mixColumns : Function.LeftInverse invMixColumns mixColumns := mixWith_leftInverse (by decide)

theorem mixColumns_invMixColumns : Function.LeftInverse mixColumns invMixColumns := mixWith_leftInverse (by decide)

/-- Settles O34: each cell of the new block is a row of the matrix times the old column; a factor 0x01 changes nothing. -/
theorem mixColumnsMultipliesColumns : Obligations.MixColumnsMultipliesColumns := by
  unfold Obligations.MixColumnsMultipliesColumns
  refine ⟨decodeCommand_of_encode rfl rfl, decodeCommand_of_encode rfl rfl, fun s =>
    ⟨⟨_, rfl, rfl, fun c => ?mix⟩, _, rfl, rfl, fun c => ?invMix⟩⟩
  case mix =>
    have hrow (r : Fin 4) := byteOf_onCells mixColumns s.block r c
    refine ⟨(hrow 0).trans ?_, (hrow 1).trans ?_, (hrow 2).trans ?_, (hrow 3).trans ?_⟩ <;>
      simp [mixColumns, mixWith, mixMatrix, cells]
  case invMix =>
    have hrow (r : Fin 4) := byteOf_onCells invMixColumns s.block r c
    exact ⟨hrow 0, hrow 1, hrow 2, hrow 3⟩

/-! ### AddRoundKey (rules R237 and R246) -/

theorem exec_addRoundKey (s : State) : exec .addRoundKey s = .next (s.finishBlock (addRoundKey s.block s.rk)) := rfl

theorem addRoundKey_zero (b : Block) : addRoundKey b (Vector.replicate 4 0) = b :=
  block_ext fun c => by rw [getElem_addRoundKey]; simp

theorem addRoundKey_self (b : Block) : addRoundKey b b = Vector.replicate 4 0 :=
  block_ext fun c => by rw [getElem_addRoundKey]; simp

/-- Settles O35: the XOR of the columns, which is the XOR of their bytes and its own inverse. -/
theorem addRoundKeyXorsTheRoundKey : Obligations.AddRoundKeyXorsTheRoundKey := by
  unfold Obligations.AddRoundKeyXorsTheRoundKey
  refine ⟨decodeCommand_of_encode rfl rfl, fun s => ⟨s.finishBlock (addRoundKey s.block s.rk), rfl, rfl, ?columns,
    fun r c => ?bytes, ?twice, ?zeroKey, ?sameKey, fun hblock hrk => ?vector⟩⟩
  case columns => exact getElem_addRoundKey s.block s.rk
  case bytes => rw [State.finishBlock_block, getElem_addRoundKey, byteOf_xor]
  case twice =>
    rw [exec_addRoundKey, State.finishBlock_block, State.finishBlock_rk, addRoundKey_addRoundKey]
    rfl
  case zeroKey => intro h; rw [State.finishBlock_block, h, addRoundKey_zero]
  case sameKey => intro h; rw [State.finishBlock_block, h, addRoundKey_self]
  case vector => rw [State.finishBlock_block, hblock, hrk]; decide

/-! ### Each transform and its inverse -/

/-- Settles O36: each command applies its transform, and the transforms undo each other in either order. -/
theorem inverseTransformsRestoreTheState : Obligations.InverseTransformsRestoreTheState := by
  unfold Obligations.InverseTransformsRestoreTheState
  intro s i j hmem
  simp only [List.mem_cons, Prod.mk.injEq, List.not_mem_nil, or_false] at hmem
  obtain ⟨rfl, rfl⟩ | ⟨rfl, rfl⟩ | ⟨rfl, rfl⟩ := hmem
  · exact ⟨appliesTransform_subBytes.execAll_pair appliesTransform_invSubBytes invSubBytes_subBytes s,
      appliesTransform_invSubBytes.execAll_pair appliesTransform_subBytes subBytes_invSubBytes s⟩
  · exact ⟨appliesTransform_shiftRows.execAll_pair appliesTransform_invShiftRows invShiftRows_shiftRows s,
      appliesTransform_invShiftRows.execAll_pair appliesTransform_shiftRows shiftRows_invShiftRows s⟩
  · exact ⟨appliesTransform_mixColumns.execAll_pair appliesTransform_invMixColumns invMixColumns_mixColumns s,
      appliesTransform_invMixColumns.execAll_pair appliesTransform_mixColumns mixColumns_invMixColumns s⟩

end Sys2Proof.Machine

/-! ## The block cipher and its commands (44_block_driver.md) -/

namespace Sys2Proof.Machine

variable {s t : State} {i : Instr} {is js : List Instr}

/-! ### The commands (rules R265 to R267) -/

theorem exec_encBlock (hv : s.keyValid = true) :
    exec .encBlock s = .next (s.finishCipher (encryptBlock s.w s.nr.toNat s.block)) := withSchedule_of_valid s _ hv

theorem exec_decBlock (hv : s.keyValid = true) :
    exec .decBlock s = .next (s.finishCipher (decryptBlock s.w s.nr.toNat s.block)) := withSchedule_of_valid s _ hv

/-- A cursor of a schedule with at most 14 rounds fits in its four bits (rule R40). -/
theorem toNat_ofNat_cursor {p : Nat} (hp : p ≤ 15) : (BitVec.ofNat 4 p).toNat = p :=
  Nat.mod_eq_of_lt (Nat.lt_succ_of_le hp)

/-- Settles O37: the acceptance drops DONE, the completion sets it, and nothing else of the core changes but LATCH. -/
theorem nopOnlyCompletes : Obligations.NopOnlyCompletes := by
  unfold Obligations.NopOnlyCompletes
  have hdec : decodeCommand 0x00000000 = .instr .nop := decodeCommand_of_encode rfl rfl
  refine ⟨hdec, fun _ => rfl, fun s rest hp hev => ?_⟩
  have hturn : step ({ s with events := .coreTurn :: rest }.accept 0x00000000) =
      exec .nop ({ s with events := rest }.accept 0x00000000) := step_of_latched rfl (.inr ⟨rest, rfl⟩) hdec
  refine ⟨_, _, step_of_sw_cmd hp hev, hturn, Bool.and_false _, Bool.and_true _, rfl, ?_⟩
  rw [hp]
  rfl

/-! ### Lists of commands (rule R91) -/

theorem execAll_append_of_execAll (h : execAll is s = .next t) : execAll (is ++ js) s = execAll js t := by
  induction is generalizing s with
  | nil => cases h; rfl
  | cons i is ih =>
    obtain ⟨u, hu, -⟩ := exec_effect i s
    rw [execAll_cons_of_exec hu] at h
    rw [List.cons_append, execAll_cons_of_exec hu, ih h]

/-! ### A block by primitive commands (rules R260, R261 and R309) -/

/-- The state `s` between two primitive commands: the block, the round key in RK and the cursor so far. -/
def State.inRound (s : State) (b k : Block) (p : Nat) : State :=
  { s with block := b, rk := k, cursor := BitVec.ofNat 4 p, phase := .idle, done := true }

/-- A transform command inside a round. -/
theorem Instr.AppliesTransform.execAll_inRound {f : Cells → Cells} (hi : Instr.AppliesTransform i f) (b k : Block)
    (p : Nat) : execAll (i :: is) (s.inRound b k p) = execAll is (s.inRound (onCells f b) k p) :=
  execAll_cons_of_exec (hi _)

/-- RK_NEXT_ENC and ADD_ROUND_KEY inside a round: the round key at the cursor (rule R203). -/
theorem execAll_nextEnc_inRound (hv : s.keyValid = true) (hnr : s.nr.toNat ≤ 14) (b k : Block) {p : Nat}
    (hp : p ≤ s.nr.toNat) :
    execAll (.rkNextEnc :: .addRoundKey :: is) (s.inRound b k p) =
      execAll is (s.inRound (addRoundKey b (roundKey s.w p)) (roundKey s.w p) (p + 1)) := by
  have hcur : (s.inRound b k p).cursor.toNat = p := toNat_ofNat_cursor (by omega)
  have hne : (s.inRound b k p).cursor.toNat ≠ s.nr.toNat + 1 := by omega
  have hnext : (s.inRound b k p).cursor + 1 = BitVec.ofNat 4 (p + 1) := (BitVec.ofNat_add p 1).symm
  rw [execAll_cons_of_exec (exec_rkNextEnc (s := s.inRound b k p) hv hne), hcur, hnext]
  exact execAll_cons_of_exec (exec_addRoundKey _)

/-- RK_NEXT_DEC and ADD_ROUND_KEY inside a round: the round key behind the cursor (rule R204). -/
theorem execAll_nextDec_inRound (hv : s.keyValid = true) (b k : Block) {p : Nat} (hp : p ≤ 14) :
    execAll (.rkNextDec :: .addRoundKey :: is) (s.inRound b k (p + 1)) =
      execAll is (s.inRound (addRoundKey b (roundKey s.w p)) (roundKey s.w p) p) := by
  have hcur : (s.inRound b k (p + 1)).cursor.toNat = p + 1 := toNat_ofNat_cursor (by omega)
  have hback : (s.inRound b k (p + 1)).cursor - 1 = BitVec.ofNat 4 p := by
    rw [sub_eq_iff_eq_add]; exact BitVec.ofNat_add p 1
  rw [execAll_cons_of_exec (exec_rkNextDec (s := s.inRound b k (p + 1)) hv (by omega)), hcur, hback]
  exact execAll_cons_of_exec (exec_addRoundKey _)

/-- The full rounds of rule R260, command by command: `n` of them after round `p`, by induction on `n`. -/
theorem execAll_encRounds (hv : s.keyValid = true) (hnr : s.nr.toNat ≤ 14) (n : Nat) (b : Block) {p : Nat}
    (hp : p + n ≤ s.nr.toNat) :
    execAll (List.replicate n [Instr.subBytes, .shiftRows, .mixColumns, .rkNextEnc, .addRoundKey]).flatten
        (s.inRound b (roundKey s.w p) (p + 1)) =
      .next (s.inRound ((List.range' (p + 1) n).foldl (encRound s.w) b) (roundKey s.w (p + n)) (p + n + 1)) := by
  induction n generalizing b p with
  | zero => rfl
  | succ n ih =>
    simp only [List.replicate_succ, List.flatten_cons, List.cons_append, List.nil_append, List.range'_succ, List.foldl_cons]
    rw [appliesTransform_subBytes.execAll_inRound, appliesTransform_shiftRows.execAll_inRound,
      appliesTransform_mixColumns.execAll_inRound, execAll_nextEnc_inRound hv hnr _ _ (by omega), ih _ (by omega),
      Nat.add_right_comm p 1 n]
    rfl

/-- The full rounds of rule R261, command by command: the last `n` of them, by induction on `n`. -/
theorem execAll_decRounds (hv : s.keyValid = true) (n : Nat) (hn : n ≤ 14) (b : Block) :
    execAll (List.replicate n [Instr.invShiftRows, .invSubBytes, .rkNextDec, .addRoundKey, .invMixColumns]).flatten
        (s.inRound b (roundKey s.w (n + 1)) (n + 1)) =
      .next (s.inRound ((List.range' 1 n).reverse.foldl (decRound s.w) b) (roundKey s.w 1) 1) := by
  induction n generalizing b with
  | zero => rfl
  | succ n ih =>
    simp only [List.replicate_succ, List.flatten_cons, List.cons_append, List.nil_append, List.range'_1_concat,
      List.reverse_append, List.reverse_singleton, List.foldl_cons, Nat.add_comm 1 n]
    rw [appliesTransform_invShiftRows.execAll_inRound, appliesTransform_invSubBytes.execAll_inRound,
      execAll_nextDec_inRound hv _ _ hn, appliesTransform_invMixColumns.execAll_inRound, ih (Nat.le_of_succ_le hn)]
    rfl

/-- Rule R260 command by command ends with the block of `encryptBlock`. -/
theorem execAll_encProgram (hv : s.keyValid = true) (hpos : 1 ≤ s.nr.toNat) (hnr : s.nr.toNat ≤ 14) :
    execAll (encProgram s.nr.toNat) s =
      .next (s.inRound (encryptBlock s.w s.nr.toNat s.block).1 (roundKey s.w s.nr.toNat) (s.nr.toNat + 1)) := by
  have hstart : execAll [.rkResetFwd, .rkNextEnc, .addRoundKey] s =
      .next (s.inRound (addRoundKey s.block (roundKey s.w 0)) (roundKey s.w 0) 1) :=
    (execAll_cons_of_exec (exec_rkResetFwd hv)).trans
      (execAll_nextEnc_inRound hv hnr s.block s.rk (Nat.zero_le _))
  have hrounds := execAll_encRounds hv hnr (s.nr.toNat - 1) (addRoundKey s.block (roundKey s.w 0)) (p := 0) (by omega)
  rw [Nat.zero_add, Nat.zero_add, Nat.sub_add_cancel hpos] at hrounds
  rw [encProgram, List.append_assoc, execAll_append_of_execAll hstart, execAll_append_of_execAll hrounds,
    appliesTransform_subBytes.execAll_inRound, appliesTransform_shiftRows.execAll_inRound,
    execAll_nextEnc_inRound hv hnr _ _ (Nat.le_refl _)]
  rfl

/-- Rule R261 command by command ends with the block of `decryptBlock`. -/
theorem execAll_decProgram (hv : s.keyValid = true) (hpos : 1 ≤ s.nr.toNat) (hnr : s.nr.toNat ≤ 14) :
    execAll (decProgram s.nr.toNat) s =
      .next (s.inRound (decryptBlock s.w s.nr.toNat s.block).1 (roundKey s.w 0) 0) := by
  have hreset : s.finishCursor (s.nr + 1) = s.inRound s.block s.rk (s.nr.toNat + 1) := by
    rw [← toNat_add_one hnr, State.inRound, BitVec.ofNat_toNat, BitVec.setWidth_eq]; rfl
  have hstart : execAll [.rkResetBwd, .rkNextDec, .addRoundKey] s =
      .next (s.inRound (addRoundKey s.block (roundKey s.w s.nr.toNat)) (roundKey s.w s.nr.toNat) s.nr.toNat) := by
    rw [execAll_cons_of_exec (exec_rkResetBwd hv), hreset]
    exact execAll_nextDec_inRound hv s.block s.rk hnr
  have hrounds := execAll_decRounds hv (s.nr.toNat - 1) (by omega) (addRoundKey s.block (roundKey s.w s.nr.toNat))
  rw [Nat.sub_add_cancel hpos] at hrounds
  rw [decProgram, List.append_assoc, execAll_append_of_execAll hstart, execAll_append_of_execAll hrounds,
    appliesTransform_invShiftRows.execAll_inRound, appliesTransform_invSubBytes.execAll_inRound,
    execAll_nextDec_inRound hv _ _ (Nat.zero_le _)]
  rfl

/-- Settles O38: the primitive commands walk the rounds of `encryptBlock`, with the cursor one ahead of the round. -/
theorem encBlockEqualsThePrimitiveCommands : Obligations.EncBlockEqualsThePrimitiveCommands := by
  unfold Obligations.EncBlockEqualsThePrimitiveCommands
  refine ⟨decodeCommand_of_encode rfl rfl, fun s hv hpos hnr => ?_⟩
  have hcur : (BitVec.ofNat 4 (s.nr.toNat + 1)).toNat = s.nr.toNat + 1 := toNat_ofNat_cursor (Nat.succ_le_succ hnr)
  exact ⟨_, _, exec_encBlock hv, execAll_encProgram hv hpos hnr, rfl, rfl, hcur, rfl, rfl⟩

/-- Settles O39: the primitive commands walk the rounds of `decryptBlock`, with the cursor at the round. -/
theorem decBlockEqualsThePrimitiveCommands : Obligations.DecBlockEqualsThePrimitiveCommands := by
  unfold Obligations.DecBlockEqualsThePrimitiveCommands
  refine ⟨decodeCommand_of_encode rfl rfl, fun s hv hpos hnr => ?_⟩
  exact ⟨_, _, exec_decBlock hv, execAll_decProgram hv hpos hnr, rfl, rfl, rfl, rfl, rfl⟩

/-! ### Decryption and encryption undo each other (rule R262) -/

/-- The first two transforms of a round of rule R260. -/
def subShift (b : Block) : Block := onCells shiftRows (onCells subBytes b)

/-- The first two transforms of a round of rule R261. -/
def invSubShift (b : Block) : Block := onCells invSubBytes (onCells invShiftRows b)

theorem invSubShift_subShift : Function.LeftInverse invSubShift subShift := fun b => by
  rw [invSubShift, subShift, onCells_of_leftInverse invShiftRows_shiftRows, onCells_of_leftInverse invSubBytes_subBytes]

theorem subShift_invSubShift : Function.LeftInverse subShift invSubShift := fun b => by
  rw [invSubShift, subShift, onCells_of_leftInverse subBytes_invSubBytes, onCells_of_leftInverse shiftRows_invShiftRows]

/-- A round of rule R261 undoes the one of rule R260, in the state between the two transforms that they share. -/
theorem decRound_subShift_encRound (w : Schedule) (b : Block) (r : Nat) :
    decRound w (subShift (encRound w b r)) r = subShift b := by
  change onCells invMixColumns (addRoundKey (invSubShift (subShift
    (addRoundKey (onCells mixColumns (subShift b)) (roundKey w r)))) (roundKey w r)) = subShift b
  rw [invSubShift_subShift, addRoundKey_addRoundKey, onCells_of_leftInverse invMixColumns_mixColumns]

theorem encRound_invSubShift_decRound (w : Schedule) (b : Block) (r : Nat) :
    encRound w (invSubShift (decRound w b r)) r = invSubShift b := by
  change addRoundKey (onCells mixColumns (subShift (invSubShift
    (onCells invMixColumns (addRoundKey (invSubShift b) (roundKey w r)))))) (roundKey w r) = invSubShift b
  rw [subShift_invSubShift, onCells_of_leftInverse mixColumns_invMixColumns, addRoundKey_addRoundKey]

/-- Rounds that undo each other one by one, up to a transform `g` between them, undo each other as loops. -/
theorem foldl_reverse_foldl {f f' : Block → Nat → Block} {g : Block → Block} (h : ∀ b r, f' (g (f b r)) r = g b)
    (rs : List Nat) (b : Block) : rs.reverse.foldl f' (g (rs.foldl f b)) = g b := by
  induction rs generalizing b with
  | nil => rfl
  | cons r rs ih => rw [List.foldl_cons, List.reverse_cons, List.foldl_append, ih, List.foldl_cons, List.foldl_nil, h]

theorem encryptBlock_fst (w : Schedule) (nr : Nat) (b : Block) : (encryptBlock w nr b).1 =
    addRoundKey (subShift ((List.range' 1 (nr - 1)).foldl (encRound w) (addRoundKey b (roundKey w 0)))) (roundKey w nr) :=
  rfl

theorem decryptBlock_fst (w : Schedule) (nr : Nat) (b : Block) : (decryptBlock w nr b).1 =
    addRoundKey (invSubShift ((List.range' 1 (nr - 1)).reverse.foldl (decRound w) (addRoundKey b (roundKey w nr))))
      (roundKey w 0) :=
  rfl

theorem decryptBlock_encryptBlock (w : Schedule) (nr : Nat) (b : Block) :
    (decryptBlock w nr (encryptBlock w nr b).1).1 = b := by
  rw [encryptBlock_fst, decryptBlock_fst, addRoundKey_addRoundKey,
    foldl_reverse_foldl (decRound_subShift_encRound w), invSubShift_subShift, addRoundKey_addRoundKey]

theorem encryptBlock_decryptBlock (w : Schedule) (nr : Nat) (b : Block) :
    (encryptBlock w nr (decryptBlock w nr b).1).1 = b := by
  have hrounds := foldl_reverse_foldl (encRound_invSubShift_decRound w) (List.range' 1 (nr - 1)).reverse
  rw [List.reverse_reverse] at hrounds
  rw [encryptBlock_fst, decryptBlock_fst, addRoundKey_addRoundKey, hrounds, subShift_invSubShift, addRoundKey_addRoundKey]

/-- Two commands, the second on what the first left. -/
theorem execAll_pair {j : Instr} {u : State} (hi : exec i s = .next t) (hj : exec j t = .next u) :
    execAll [i, j] s = .next u := by
  rw [execAll_cons_of_exec hi, execAll_cons_of_exec hj]; rfl

/-- Settles O40: the ciphers undo each other on the block, and each leaves its own cursor. -/
theorem decryptionUndoesEncryption : Obligations.DecryptionUndoesEncryption := by
  unfold Obligations.DecryptionUndoesEncryption
  intro s hv hnr
  refine ⟨(execAll_pair (exec_encBlock hv) (exec_decBlock hv)).trans ?_, BitVec.ofNat 4 (s.nr.toNat + 1),
    toNat_ofNat_cursor (by omega), (execAll_pair (exec_decBlock hv) (exec_encBlock hv)).trans ?_⟩
  · simp only [State.finishCipher_block, State.finishCipher_w, State.finishCipher_nr]
    rw [State.finishCipher, decryptBlock_encryptBlock]; rfl
  · simp only [State.finishCipher_block, State.finishCipher_w, State.finishCipher_nr]
    rw [State.finishCipher, encryptBlock_decryptBlock]; rfl

/-! ### The known answers (95_test_vectors.md, section 1.1) -/

/-- KEY_EXPAND and then ENC_BLOCK, for a legal key length: the cipher over the expanded key (rules R200 and R266). -/
theorem execAll_keyExpand_encBlock (hlen : validKeyLen s.keyLen.toNat = true) :
    ∃ t, execAll [.keyExpand, .encBlock] s = .next t ∧
      t.cursor = BitVec.ofNat 4 (s.keyLen.toNat / 4 + 6 + 1) ∧
      t.block = (encryptBlock (keyExpansion s.key (s.keyLen.toNat / 4)) (s.keyLen.toNat / 4 + 6) s.block).1 := by
  have hnr : (BitVec.ofNat 4 (s.keyLen.toNat / 4 + 6)).toNat = s.keyLen.toNat / 4 + 6 := toNat_ofNat_cursor (by
    rcases validKeyLen_cases hlen with h | h | h <;> omega)
  refine ⟨_, execAll_pair (exec_keyExpand hlen) (exec_encBlock rfl), ?_, ?_⟩
  · simp only [State.finishCipher_cursor, State.complete_nr, State.installSchedule_nr, hnr]
    rfl
  · simp only [State.finishCipher_block, State.complete_nr, State.installSchedule_nr, hnr]
    rfl

/-- Settles O41: the cipher over the expanded key, which is computed for each of the three keys. -/
theorem knownAnswers : Obligations.KnownAnswers := by
  unfold Obligations.KnownAnswers
  intro s hblock hkey
  have hanswer (hlen : validKeyLen s.keyLen.toNat = true) := execAll_keyExpand_encBlock hlen
  rw [hblock, hkey] at hanswer
  refine ⟨fun hlen => ?k16, fun hlen => ?k24, fun hlen => ?k32⟩
  all_goals
    rw [hlen] at hanswer
    obtain ⟨t, ht, hcursor, hout⟩ := hanswer rfl
    refine ⟨t, ht, hcursor, hout.trans ?_⟩
    decide +kernel

end Sys2Proof.Machine

/-! ## Message-level ECB as functions (rules R270 to R273) -/

namespace Sys2Proof.Machine

/-! ### Bytes of a block (rule R46) -/

@[simp] theorem wordOfBytes_bytesOfBlock (b : Block) (c : Fin 4) : wordOfBytes (bytesOfBlock b) c.val = b[c] := by
  match c with
  | 0 | 1 | 2 | 3 => exact word32_byteOf _

@[simp] theorem blockOfBytes_bytesOfBlock (b : Block) : blockOfBytes (bytesOfBlock b) = b :=
  block_ext fun c => by
    refine Eq.trans ?_ (wordOfBytes_bytesOfBlock b c)
    match c with
    | 0 | 1 | 2 | 3 => rfl

theorem bytesOfWord_wordOfBytes (m : List Byte) (i : Nat) :
    bytesOfWord (wordOfBytes m i) =
      [byteAt m (4 * i), byteAt m (4 * i + 1), byteAt m (4 * i + 2), byteAt m (4 * i + 3)] := by
  simp [bytesOfWord, wordOfBytes]

/-- Sixteen bytes come back from the block that they make. -/
theorem bytesOfBlock_blockOfBytes (m : List Byte) :
    bytesOfBlock (blockOfBytes m) = (List.range 16).map (byteAt m) := by
  change bytesOfWord (wordOfBytes m 0) ++ bytesOfWord (wordOfBytes m 1) ++ bytesOfWord (wordOfBytes m 2) ++
    bytesOfWord (wordOfBytes m 3) = _
  simp only [bytesOfWord_wordOfBytes]
  rfl

@[simp] theorem length_bytesOfBlock (b : Block) : (bytesOfBlock b).length = 16 := rfl

/-! ### Chunks (rule R270) -/

theorem byteAt_chunk (m : List Byte) (j : Nat) {i : Nat} (hi : i < 16) : byteAt (chunk m j) i = byteAt m (16 * j + i) := by
  simp [byteAt, chunk, hi]

@[simp] theorem bytesOfBlock_blockOfBytes_chunk (m : List Byte) (j : Nat) :
    bytesOfBlock (blockOfBytes (chunk m j)) = chunk m j := by
  rw [bytesOfBlock_blockOfBytes, chunk]
  exact List.map_congr_left fun i hi => byteAt_chunk m j (List.mem_range.mp hi)

/-- A chunk inside the message is sixteen of its bytes. -/
theorem chunk_eq_take_drop {m : List Byte} {j : Nat} (h : 16 * j + 16 ≤ m.length) : chunk m j = (m.drop (16 * j)).take 16 := by
  refine List.ext_getElem (by simp [chunk]; omega) fun i hi _ => ?_
  have hlt : 16 * j + i < m.length := by simp [chunk] at hi; omega
  simp [chunk, byteAt, hlt]

/-- The chunks, in order, are the bytes of the message and zeros past its end. -/
theorem flatMap_chunk (m : List Byte) (n : Nat) : (List.range n).flatMap (chunk m) = (List.range (16 * n)).map (byteAt m) := by
  induction n with
  | zero => rfl
  | succ n ih =>
    rw [List.range_succ, List.flatMap_append, ih, List.flatMap_singleton, Nat.mul_succ, List.range_add, List.map_append,
      List.map_map]
    rfl

theorem map_byteAt_range {m : List Byte} {n : Nat} (h : m.length ≤ n) :
    (List.range n).map (byteAt m) = m ++ List.replicate (n - m.length) 0x00 := by
  refine List.ext_getElem (by simp; omega) fun i hi _ => ?_
  rw [List.getElem_map, List.getElem_range, byteAt, List.getElem_append]
  split
  case isTrue hlt => simp [hlt]
  case isFalse hge => simp [hge]

/-! ### Blocks one after the other -/

section
variable (f : Nat → Block)

/-- The bytes of the blocks `f 0`, .., `f (n - 1)`. -/
def bytesOfBlocks (n : Nat) : List Byte := (List.range n).flatMap fun j => bytesOfBlock (f j)

@[simp] theorem length_bytesOfBlocks (n : Nat) : (bytesOfBlocks f n).length = 16 * n := by
  simp [bytesOfBlocks, Nat.mul_comm]

/-- The sixteen bytes at `16 * j` are those of block `j`. -/
theorem take_drop_bytesOfBlocks {n j : Nat} (hj : j < n) :
    ((bytesOfBlocks f n).drop (16 * j)).take 16 = bytesOfBlock (f j) := by
  obtain ⟨k, rfl⟩ := Nat.exists_eq_add_of_lt hj
  have hsplit : bytesOfBlocks f (j + k + 1) =
      bytesOfBlocks f j ++ (bytesOfBlock (f j) ++ bytesOfBlocks (fun i => f (j + (i + 1))) k) := by
    simp [bytesOfBlocks, Nat.add_assoc, List.range_add, List.range_succ_eq_map, List.flatMap_map]
  rw [hsplit, List.drop_left' (length_bytesOfBlocks f j), List.take_left' (length_bytesOfBlock _)]

theorem chunk_bytesOfBlocks {n j : Nat} (hj : j < n) : chunk (bytesOfBlocks f n) j = bytesOfBlock (f j) := by
  rw [chunk_eq_take_drop (by rw [length_bytesOfBlocks]; omega), take_drop_bytesOfBlocks f hj]

end

/-! ### The procedures (rules R270 and R271) -/

section
variable {m key : List Byte}

/-- What a block cipher makes of chunk `j` under a key, of that chunk alone (rule R272). -/
def cipherChunk (cipher : Schedule → Nat → Block → Block × Nat) (key m : List Byte) (j : Nat) : Block :=
  (cipher (scheduleOf key) (roundsOf key) (blockOfBytes (chunk m j))).1

theorem ecbEncrypt_of_validKeyLen (hkey : validKeyLen key.length = true) :
    ecbEncrypt m key = .output (bytesOfBlocks (cipherChunk encryptBlock key m) (chunkCount m.length)) := if_pos hkey

theorem ecbEncrypt_of_not_validKeyLen (hkey : validKeyLen key.length = false) : ecbEncrypt m key = .keyLengthError :=
  if_neg (Bool.eq_false_iff.mp hkey)

theorem ecbDecrypt_of_validKeyLen (hkey : validKeyLen key.length = true) (hlen : m.length % 16 = 0) :
    ecbDecrypt m key = .output (bytesOfBlocks (cipherChunk decryptBlock key m) (m.length / 16)) :=
  (if_pos hkey).trans (if_pos hlen)

theorem ecbDecrypt_of_misaligned (hkey : validKeyLen key.length = true) (hlen : m.length % 16 ≠ 0) :
    ecbDecrypt m key = .misaligned := (if_pos hkey).trans (if_neg hlen)

theorem ecbDecrypt_of_not_validKeyLen (hkey : validKeyLen key.length = false) : ecbDecrypt m key = .keyLengthError :=
  if_neg (Bool.eq_false_iff.mp hkey)

/-- Settles O52: the output is the blocks of the chunks, one after the other. -/
theorem ecbEncryptsChunkByChunk : Obligations.EcbEncryptsChunkByChunk := by
  unfold Obligations.EcbEncryptsChunkByChunk
  intro m key
  refine ⟨ecbEncrypt_of_not_validKeyLen, fun hkey => ⟨_, ecbEncrypt_of_validKeyLen hkey, length_bytesOfBlocks _ _, ?_⟩⟩
  exact fun j hj => take_drop_bytesOfBlocks (cipherChunk encryptBlock key m) hj

/-- Deciphering the blocks that enciphering made gives the chunks back, whose bytes are the message and its zero fill. -/
theorem ecbDecrypt_ecbEncrypt (hkey : validKeyLen key.length = true) (m : List Byte) :
    ecbDecrypt (bytesOfBlocks (cipherChunk encryptBlock key m) (chunkCount m.length)) key =
      .output (m ++ List.replicate (16 * chunkCount m.length - m.length) 0x00) := by
  have hfill : m.length ≤ 16 * chunkCount m.length := by unfold chunkCount; omega
  rw [ecbDecrypt_of_validKeyLen hkey (by simp), length_bytesOfBlocks, Nat.mul_div_cancel_left _ (by decide),
    ← map_byteAt_range hfill, ← flatMap_chunk, bytesOfBlocks]
  refine congrArg EcbResult.output (List.flatMap_congr fun j hj => ?_)
  rw [cipherChunk, chunk_bytesOfBlocks _ (List.mem_range.mp hj), blockOfBytes_bytesOfBlock, cipherChunk,
    decryptBlock_encryptBlock, bytesOfBlock_blockOfBytes_chunk]

/-- Settles O53: the round trip of the ciphers on every chunk, and the two refusals. -/
theorem ecbRoundTrip : Obligations.EcbRoundTrip := by
  unfold Obligations.EcbRoundTrip
  intro m key
  exact ⟨fun hkey => ⟨_, ecbEncrypt_of_validKeyLen hkey, ecbDecrypt_ecbEncrypt hkey m⟩, ecbDecrypt_of_misaligned,
    ecbDecrypt_of_not_validKeyLen⟩

end

end Sys2Proof.Machine

/-! ## Runs over the host's events (rules R91 and R330; log 1) -/

namespace Sys2Proof.Machine

variable {s t u : State} {es fs : List Event} {i : Instr}

/-- The events `es` take the machine from `s` to `t`, whatever comes after them; the fields `events` of `s` and `t` are not
looked at. -/
def RunsTo (es : List Event) (s t : State) : Prop :=
  ∀ rest, runSteps es.length { s with events := es ++ rest } = .next { t with events := rest }

theorem runSteps_add_of_runSteps {m : Nat} (h : runSteps m s = .next t) (n : Nat) : runSteps (m + n) s = runSteps n t := by
  induction m generalizing s with
  | zero => cases h; rw [Nat.zero_add]
  | succ m ih =>
    cases hstep : step s with
    | next v =>
      rw [runSteps_succ_of_step hstep] at h
      rw [Nat.succ_add, runSteps_succ_of_step hstep, ih h]
    | fault r => cases r
    | refused r => simp [runSteps, hstep] at h

theorem runsTo_nil : RunsTo [] s s := fun _ => rfl

theorem RunsTo.trans (h : RunsTo es s t) (h' : RunsTo fs t u) : RunsTo (es ++ fs) s u := fun rest => by
  rw [List.length_append, List.append_assoc, runSteps_add_of_runSteps (h (fs ++ rest)), h' rest]

/-- From a state whose events start with `es`. -/
theorem RunsTo.runSteps_of_events (h : RunsTo es s t) {rest : List Event} (hev : s.events = es ++ rest) :
    runSteps es.length s = .next { t with events := rest } := by
  rw [← h rest, ← hev]

theorem runsTo_of_step {e : Event} (h : ∀ rest, step { s with events := e :: rest } = .next { t with events := rest }) :
    RunsTo [e] s t :=
  fun rest => runSteps_succ_of_step (h rest) 0

/-! ### One transaction (rules R85, R86 and R120) -/

/-- The host has read the values `rs` more, and `d` free values have been drawn. -/
def State.afterReads (s : State) (rs : List Word) (d : Nat) : State := { s with reads := s.reads ++ rs, draws := d }

theorem afterReads_afterReads (s : State) (rs rs' : List Word) (d d' : Nat) :
    (s.afterReads rs d).afterReads rs' d' = s.afterReads (rs ++ rs') d' := by
  simp only [State.afterReads, List.append_assoc]

theorem afterReads_nil (s : State) : s.afterReads [] s.draws = s := by
  rw [State.afterReads, List.append_nil]

/-- A write does not look at the events. -/
theorem writeReg_events (s : State) (v : Word) (r : Reg) (es : List Event) :
    ({ s with events := es } : State).writeReg v r = { s.writeReg v r with events := es } := by
  cases r <;> rfl

theorem regValue_events (s : State) (r : Reg) (es : List Event) : ({ s with events := es } : State).regValue r = s.regValue r := by
  cases r <;> rfl

theorem runsTo_sw (hp : s.phase = .idle) (off : BitVec 12) (v : Word) : RunsTo [sw off v] s (s.writeReg v (regAt off)) :=
  runsTo_of_step fun rest => by
    rw [sw, step_of_transaction rfl, decodeTransaction_hostWriteBits]
    exact congrArg Host.Outcome.next
      ((writePort_of_idle { s with events := rest } v _ hp).trans (writeReg_events s v _ rest))

theorem runsTo_lw (hp : s.phase = .idle) (off : BitVec 12) :
    RunsTo [lw off] s (s.afterReads [s.regValue (regAt off)] s.draws) :=
  runsTo_of_step fun rest => by
    rw [lw, step_of_transaction rfl, decodeTransaction_hostReadBits]
    refine congrArg Host.Outcome.next ((readPort_of_idle { s with events := rest } _ hp).trans ?_)
    rw [regValue_events]
    rfl

/-- A STATUS read while BUSY (rule R56). -/
theorem runsTo_lw_status_of_busy (hp : s.phase = .busy) :
    RunsTo [lw 0x004] s (s.afterReads [s.busyStatusWord (Config.busyRead s.draws)] (s.draws + 1)) :=
  runsTo_of_step fun rest => by
    rw [lw, step_of_transaction rfl, decodeTransaction_hostReadBits]
    exact congrArg Host.Outcome.next (readPort_of_busy { s with events := rest } .status hp)

/-! ### A command and the wait for it (rules R116, R119 and R121) -/

/-- The completion step of the command takes `s` to `t`, whatever the host's moves are and whatever it has read meanwhile;
the fields `events` of `s` and `t` are not looked at. -/
def CompletesTo (i : Instr) (s t : State) : Prop :=
  ∀ es rs d, exec i { s.afterReads rs d with events := es } = .next { t.afterReads rs d with events := es }

/-- The poll of BUSY ends at the first read that has the bit at 0. -/
theorem pollDone_busy (v : Word) : pollDone 0x1 0 v = !v.getLsbD 0 := by
  have hand : v &&& 0x1 = (BitVec.ofBool (v.getLsbD 0)).setWidth 32 := BitVec.and_one_eq_setWidth_ofBool_getLsbD
  rw [pollDone, hand]
  cases v.getLsbD 0 <;> rfl

theorem pollDone_busyStatusWord (hp : s.phase = .busy) (draw : Word) : pollDone 0x1 0 (s.busyStatusWord draw) = false := by
  obtain ⟨hbusy, -⟩ := busyStatusWord_exact hp draw
  rw [pollDone_busy, hbusy]; rfl

theorem pollDone_statusWord (hp : s.phase = .idle) : pollDone 0x1 0 s.statusWord = true := by
  obtain ⟨hidle, -⟩ := statusWord_of_idle hp
  rw [pollDone_busy, hidle]; rfl

/-- The polls of a busy core fail, one by one, and change nothing of the core. -/
theorem runsTo_failedPolls (hp : s.phase = .busy) (n : Nat) :
    ∃ polled d, RunsTo (List.replicate n (lw 0x004)) s (s.afterReads polled d) ∧
      polled.map (pollDone 0x1 0) = List.replicate n false := by
  induction n generalizing s with
  | zero => exact ⟨[], s.draws, by rw [afterReads_nil]; exact runsTo_nil, rfl⟩
  | succ n ih =>
    have hfirst := runsTo_lw_status_of_busy hp
    obtain ⟨polled, d, hrest, hfailed⟩ :=
      ih (s := s.afterReads [s.busyStatusWord (Config.busyRead s.draws)] (s.draws + 1)) hp
    refine ⟨[s.busyStatusWord (Config.busyRead s.draws)] ++ polled, d, ?_, ?_⟩
    · rw [← afterReads_afterReads]
      exact hfirst.trans hrest
    · rw [List.map_append, hfailed, List.map_singleton, pollDone_busyStatusWord hp]
      rfl

theorem runsTo_coreTurn (hp : s.phase = .busy) (hd : decodeCommand s.latch = .instr i) (hi : CompletesTo i s t)
    (rs : List Word) (d : Nat) : RunsTo [.coreTurn] (s.afterReads rs d) (t.afterReads rs d) :=
  runsTo_of_step fun rest => by
    rw [step_of_latched (s := { s.afterReads rs d with events := .coreTurn :: rest }) hp (.inr ⟨rest, rfl⟩) hd]
    exact hi rest rs d

/-- `aes.wait`: the failed polls, the completion, and the poll that sees it (rules R121 and R324). -/
theorem runsTo_aesWait (hp : s.phase = .busy) (hd : decodeCommand s.latch = .instr i) (hi : CompletesTo i s t)
    (hidle : t.phase = .idle) (n : Nat) :
    ∃ polled d, RunsTo (aesWait n) s (t.afterReads polled d) ∧
      polled.map (pollDone 0x1 0) = List.replicate n false ++ [true] := by
  obtain ⟨polled, d, hpolls, hfailed⟩ := runsTo_failedPolls hp n
  have hlast := runsTo_lw (s := t.afterReads polled d) hidle 0x004
  rw [afterReads_afterReads] at hlast
  refine ⟨_, _, hpolls.trans ((runsTo_coreTurn hp hd hi polled d).trans hlast), ?_⟩
  rw [List.map_append, hfailed, List.map_singleton]
  exact congrArg (fun b => _ ++ [b]) (pollDone_statusWord (s := t.afterReads polled d) hidle)

/-- `aes.<name>` and `aes.wait` on an idle core. -/
theorem runsTo_command {v : Word} (hp : s.phase = .idle) (hd : decodeCommand v = .instr i)
    (hi : CompletesTo i (s.accept v) t) (hidle : t.phase = .idle) (n : Nat) :
    ∃ polled d, RunsTo ([aes v] ++ aesWait n) s (t.afterReads polled d) ∧
      polled.map (pollDone 0x1 0) = List.replicate n false ++ [true] := by
  have haccept : RunsTo [aes v] s (s.accept v) := runsTo_sw hp 0x008 v
  obtain ⟨polled, d, hwait, hpolled⟩ := runsTo_aesWait (s := s.accept v) rfl hd hi hidle n
  exact ⟨polled, d, haccept.trans hwait, hpolled⟩

/-- The wait reads one value for each failed poll, and one more. -/
theorem length_of_map_pollDone {polled : List Word} {n : Nat}
    (h : polled.map (pollDone 0x1 0) = List.replicate n false ++ [true]) : polled.length = n + 1 := by
  simpa using congrArg List.length h

end Sys2Proof.Machine

/-! ## The loop of the host procedure (rules R270, R271 and R324) -/

namespace Sys2Proof.Machine

variable {s t : State} {command : Word} {cipher : Schedule → Nat → Block → Block × Nat}

/-! ### Moving a block (rule R121) -/

/-- The columns of a block, in the order in which `rd128` reads them. -/
def columns (b : Block) : List Word := [b[0], b[1], b[2], b[3]]

theorem flatMap_bytesOfWord_columns (b : Block) : (columns b).flatMap bytesOfWord = bytesOfBlock b := rfl

theorem regAt_offsetAt_block : ∀ j : Fin 4, regAt (offsetAt 0x030 j.val) = .block j := by decide

theorem runsTo_sw_block (hp : s.phase = .idle) (j : Fin 4) (v : Word) :
    RunsTo [sw (offsetAt 0x030 j.val) v] s { s with block := s.block.set j v } := by
  have h := runsTo_sw hp (offsetAt 0x030 j.val) v
  rwa [regAt_offsetAt_block] at h

theorem runsTo_lw_block (hp : s.phase = .idle) (j : Fin 4) :
    RunsTo [lw (offsetAt 0x030 j.val)] s (s.afterReads [s.block[j]] s.draws) := by
  have h := runsTo_lw hp (offsetAt 0x030 j.val)
  rwa [regAt_offsetAt_block] at h

theorem runsTo_wr128 (hp : s.phase = .idle) (bytes : List Byte) :
    RunsTo (wr128 0x030 bytes) s { s with block := blockOfBytes bytes } := by
  have hset (b : Block) (v0 v1 v2 v3 : Word) : #v[v0, v1, v2, v3] = (((b.set 0 v0).set 1 v1).set 2 v2).set 3 v3 :=
    block_ext fun c => by
      match c with
      | 0 | 1 | 2 | 3 => simp
  rw [blockOfBytes, hset s.block]
  exact (((runsTo_sw_block hp 0 _).trans (runsTo_sw_block (by exact hp) 1 _)).trans
    (runsTo_sw_block (by exact hp) 2 _)).trans (runsTo_sw_block (by exact hp) 3 _)

theorem runsTo_rd128 (hp : s.phase = .idle) : RunsTo (rd128 0x030) s (s.afterReads (columns s.block) s.draws) := by
  have hreads : s.afterReads (columns s.block) s.draws =
      (((s.afterReads [s.block[0]] s.draws).afterReads [s.block[1]] s.draws).afterReads [s.block[2]] s.draws).afterReads
        [s.block[3]] s.draws := by
    simp only [afterReads_afterReads]
    rfl
  rw [hreads]
  exact (((runsTo_lw_block hp 0).trans (runsTo_lw_block (by exact hp) 1)).trans
    (runsTo_lw_block (by exact hp) 2)).trans (runsTo_lw_block (by exact hp) 3)

/-! ### One pass -/

/-- The command word runs the block cipher on STATE (rules R266 and R267). -/
def IsCipherCommand (command : Word) (cipher : Schedule → Nat → Block → Block × Nat) : Prop :=
  ∃ i, decodeCommand command = .instr i ∧
    ∀ s : State, s.keyValid = true → exec i s = .next (s.finishCipher (cipher s.w s.nr.toNat s.block))

theorem isCipherCommand_encBlock : IsCipherCommand 0x00000030 encryptBlock :=
  ⟨.encBlock, decodeCommand_of_encode rfl rfl, fun _ => exec_encBlock⟩

theorem isCipherCommand_decBlock : IsCipherCommand 0x00000031 decryptBlock :=
  ⟨.decBlock, decodeCommand_of_encode rfl rfl, fun _ => exec_decBlock⟩

/-- The state after a pass but for the reads: STATE and CURSOR hold the cipher's result, and LATCH the command. -/
def State.afterCipher (s : State) (command : Word) (out : Block × Nat) : State :=
  (s.accept command).finishCipher out

/-- One pass: the block is written, the cipher runs on it, and its result is read. -/
theorem runsTo_chunkScript (hc : IsCipherCommand command cipher) (hp : s.phase = .idle) (hv : s.keyValid = true)
    (bytes : List Byte) (n : Nat) {out : Block × Nat} (hout : cipher s.w s.nr.toNat (blockOfBytes bytes) = out) :
    ∃ polled d, RunsTo (chunkScript command bytes n) s ((s.afterCipher command out).afterReads (polled ++ columns out.1) d) ∧
      polled.map (pollDone 0x1 0) = List.replicate n false ++ [true] := by
  obtain ⟨i, hd, hexec⟩ := hc
  have hi : CompletesTo i (({ s with block := blockOfBytes bytes } : State).accept command) (s.afterCipher command out) := by
    subst hout
    exact fun es rs d => hexec _ hv
  obtain ⟨polled, d, hcommand, hpolled⟩ := runsTo_command (s := { s with block := blockOfBytes bytes }) hp hd hi rfl n
  have hread := runsTo_rd128 (s := (s.afterCipher command out).afterReads polled d) rfl
  rw [afterReads_afterReads] at hread
  refine ⟨polled, d, ?_, hpolled⟩
  rw [chunkScript, List.append_assoc (wr128 _ _)]
  exact ((runsTo_wr128 hp bytes).trans hcommand).trans hread

/-- Settles O55: the pass writes the block, runs the cipher on it, and reads the result. -/
theorem chunkProcedureReturnsTheBlock : Obligations.ChunkProcedureReturnsTheBlock := by
  unfold Obligations.ChunkProcedureReturnsTheBlock
  intro s bytes polls rest command out hp hv _ hev hcipher
  obtain ⟨cipher, hc, rfl⟩ : ∃ cipher, IsCipherCommand command cipher ∧
      out = (cipher s.w s.nr.toNat (blockOfBytes bytes)).1 := by
    obtain ⟨rfl, hout⟩ | ⟨rfl, hout⟩ := hcipher
    · exact ⟨encryptBlock, isCipherCommand_encBlock, hout⟩
    · exact ⟨decryptBlock, isCipherCommand_decBlock, hout⟩
  obtain ⟨polled, d, hrun, hpolled⟩ := runsTo_chunkScript hc hp hv bytes polls rfl
  refine ⟨_, polled, hrun.runSteps_of_events hev, rfl, rfl, (List.append_assoc _ _ _).symm, hpolled, ?_⟩
  rw [hp]
  rfl

end Sys2Proof.Machine

/-! ## The key steps of the host procedure (rules R270 and R323) -/

namespace Sys2Proof.Machine

variable {s t : State} {key : List Byte}

/-! ### Writing the key (rules R43 to R45 and R121) -/

/-- The low byte that a `sw KEYLEN` of `wrkey` writes. -/
theorem toNat_setWidth_min_255 (n : Nat) : ((BitVec.ofNat 32 (min n 255)).setWidth 8).toNat = min n 255 := by
  rw [BitVec.toNat_setWidth, BitVec.toNat_ofNat]
  omega

/-- A length that KEYLEN cannot hold is as illegal as 255. -/
theorem validKeyLen_min_255 (n : Nat) : validKeyLen (min n 255) = validKeyLen n := by
  rcases Nat.le_total n 255 with h | h
  · rw [Nat.min_eq_left h]
  · have hlong : validKeyLen n = false := by simp [validKeyLen]; omega
    rw [Nat.min_eq_right h, hlong]
    rfl

theorem regAt_offsetAt_key : ∀ m : Fin 8, regAt (offsetAt 0x010 m.val) = .key m := by decide

theorem runsTo_sw_key (hp : s.phase = .idle) (m : Fin 8) (v : Word) :
    RunsTo [sw (offsetAt 0x010 m.val) v] s ({ s with key := s.key.set m v } : State).invalidate := by
  have h := runsTo_sw hp (offsetAt 0x010 m.val) v
  rwa [regAt_offsetAt_key] at h

/-- `n` key words written, by induction on `n`: those registers hold the key's words, and the schedule is invalid. -/
theorem runsTo_keyWords (hp : s.phase = .idle) (key : List Byte) {n : Nat} (hn : n ≤ 8) :
    ∃ k : KeyRegs, RunsTo ((List.range n).map fun m => sw (offsetAt 0x010 m) (wordOfBytes key m)) s.invalidate
        ({ s with key := k } : State).invalidate ∧ ∀ m : Fin 8, m.val < n → k[m] = wordOfBytes key m := by
  induction n with
  | zero => exact ⟨s.key, runsTo_nil, fun m hm => absurd hm (Nat.not_lt_zero _)⟩
  | succ n ih =>
    obtain ⟨k, hrun, hwords⟩ := ih (Nat.le_of_succ_le hn)
    have hlast := runsTo_sw_key (s := ({ s with key := k } : State).invalidate) hp ⟨n, hn⟩ (wordOfBytes key n)
    refine ⟨k.set n (wordOfBytes key n), ?_, fun m hm => ?_⟩
    · rw [List.range_succ, List.map_append, List.map_singleton]
      exact hrun.trans hlast
    · rcases Nat.lt_succ_iff_lt_or_eq.mp hm with h | h
      · exact (Vector.getElem_set_ne _ _ h.ne').trans (hwords m h)
      · simp [h]

/-- The state after `wrkey`, with `k` in the key registers. -/
def State.afterWrkey (s : State) (key : List Byte) (k : KeyRegs) : State :=
  ({ s with keyLen := (BitVec.ofNat 32 (min key.length 255)).setWidth 8, key := k } : State).invalidate

theorem toNat_keyLen_afterWrkey (s : State) (key : List Byte) (k : KeyRegs) :
    (s.afterWrkey key k).keyLen.toNat = min key.length 255 := toNat_setWidth_min_255 key.length

/-- `wrkey`: KEYLEN and the words of the key are written, and the schedule is invalid. -/
theorem runsTo_wrkey (hp : s.phase = .idle) (key : List Byte) :
    ∃ k : KeyRegs, RunsTo (wrkey key) s (s.afterWrkey key k) ∧
      ∀ m : Fin 8, m.val < (key.length + 3) / 4 → k[m] = wordOfBytes key m := by
  have hlen := runsTo_sw hp 0x00C (BitVec.ofNat 32 (min key.length 255))
  obtain ⟨k, hwords, hk⟩ := runsTo_keyWords
    (s := { s with keyLen := (BitVec.ofNat 32 (min key.length 255)).setWidth 8 }) hp key (Nat.min_le_right _ 8)
  exact ⟨k, hlen.trans hwords, fun m hm => hk m (Nat.lt_min.mpr ⟨hm, m.isLt⟩)⟩

/-! ### KEY_EXPAND on the key written (rules R195 and R200) -/

theorem getElem_keyRegsOf (key : List Byte) (m : Fin 8) : (keyRegsOf key)[m] = wordOfBytes key m := by
  match m with
  | 0 | 1 | 2 | 3 | 4 | 5 | 6 | 7 => rfl

/-- The expansion looks at the `nk` first key registers only (rule R195). -/
theorem keyExpansion_congr {k k' : KeyRegs} {nk : Nat} (hnk : nk ≤ 8) (h : ∀ m : Fin 8, m.val < nk → k[m] = k'[m]) :
    keyExpansion k nk = keyExpansion k' nk := by
  have hcopy : copyKey k nk = copyKey k' nk := List.foldl_ext _ _ _ fun w m hm => by
    have hlt : m < nk := List.mem_range.mp hm
    have hm8 : m < 8 := Nat.lt_of_lt_of_le hlt hnk
    have hword : k[m] = k'[m] := h ⟨m, hm8⟩ hlt
    simp [hm8, hword]
  rw [keyExpansion_eq_expandFrom, keyExpansion_eq_expandFrom, hcopy]

/-- What KEY_EXPAND does (rule R200). -/
def State.expandKey (s : State) : State :=
  if validKeyLen s.keyLen.toNat then (s.installSchedule (s.keyLen.toNat / 4)).complete else s.raiseError .keyLen

theorem expandKey_of_valid (h : validKeyLen s.keyLen.toNat = true) :
    s.expandKey = (s.installSchedule (s.keyLen.toNat / 4)).complete := if_pos h

theorem expandKey_of_not_valid (h : validKeyLen s.keyLen.toNat = false) : s.expandKey = s.raiseError .keyLen :=
  if_neg (Bool.eq_false_iff.mp h)

theorem completesTo_keyExpand (s : State) : CompletesTo .keyExpand s s.expandKey := by
  intro es rs d
  cases hlen : validKeyLen s.keyLen.toNat with
  | true => rw [expandKey_of_valid hlen]; exact if_pos hlen
  | false => rw [expandKey_of_not_valid hlen]; exact if_neg (Bool.eq_false_iff.mp hlen)

theorem expandKey_phase (s : State) : s.expandKey.phase = .idle := by
  cases hlen : validKeyLen s.keyLen.toNat with
  | true => rw [expandKey_of_valid hlen]; rfl
  | false => rw [expandKey_of_not_valid hlen]; rfl

theorem expandKey_reads (s : State) : s.expandKey.reads = s.reads := by
  cases hlen : validKeyLen s.keyLen.toNat with
  | true => rw [expandKey_of_valid hlen]; rfl
  | false => rw [expandKey_of_not_valid hlen]; rfl

/-- On an invalid schedule, KEY_EXPAND sets KEY_VALID exactly when the key length is legal. -/
theorem expandKey_keyValid (hv : s.keyValid = false) : s.expandKey.keyValid = validKeyLen s.keyLen.toNat := by
  cases hlen : validKeyLen s.keyLen.toNat with
  | true => rw [expandKey_of_valid hlen]; rfl
  | false => rw [expandKey_of_not_valid hlen]; exact hv

/-- From `s` to `t` the schedule of the key has been installed, with no error recorded. -/
structure State.Keyed (s t : State) (key : List Byte) : Prop where
  keyValid : t.keyValid = true
  w : t.w = scheduleOf key
  nr : t.nr.toNat = roundsOf key
  err : t.err = s.err
  errCode : t.errCode = s.errCode

theorem keyed_expandKey (hkey : validKeyLen key.length = true) (hlen : s.keyLen.toNat = key.length)
    (hk : ∀ m : Fin 8, m.val < (key.length + 3) / 4 → s.key[m] = wordOfBytes key m) : s.Keyed s.expandKey key := by
  have hnk : key.length / 4 ≤ 8 ∧ key.length / 4 ≤ (key.length + 3) / 4 := by
    rcases validKeyLen_cases hkey with h | h | h <;> omega
  rw [expandKey_of_valid (hlen ▸ hkey), hlen]
  refine ⟨rfl, ?w, toNat_ofNat_cursor (by omega), rfl, rfl⟩
  refine keyExpansion_congr hnk.1 fun m hm => ?_
  rw [getElem_keyRegsOf]
  exact hk m (Nat.lt_of_lt_of_le hm hnk.2)

/-! ### The key steps as a whole -/

/-- `if st[3] = 0` of rule R270 looks at KEY_VALID. -/
theorem keyRefused_statusWord (s : State) : keyRefused s.statusWord = !s.keyValid :=
  congrArg (!·) (getLsbD_statusWord s 3)

/-- The core after the key steps: `wrkey`, then KEY_EXPAND. -/
def State.afterKeySteps (s : State) (key : List Byte) (k : KeyRegs) : State :=
  ((s.afterWrkey key k).accept 0x00000010).expandKey

theorem keyValid_afterKeySteps (s : State) (key : List Byte) (k : KeyRegs) :
    (s.afterKeySteps key k).keyValid = validKeyLen key.length := by
  have hvalid : (s.afterKeySteps key k).keyValid = validKeyLen (s.afterWrkey key k).keyLen.toNat := expandKey_keyValid rfl
  rw [hvalid, toNat_keyLen_afterWrkey, validKeyLen_min_255]

/-- The key steps on an idle core: `wrkey`, `aes.key_expand`, `aes.wait`, and the STATUS read `st`. -/
theorem runsTo_keyScript (hp : s.phase = .idle) (key : List Byte) (n : Nat) :
    ∃ t polled st d, RunsTo (keyScript key n) s (t.afterReads (polled ++ [st]) d) ∧ t.phase = .idle ∧ t.reads = s.reads ∧
      polled.map (pollDone 0x1 0) = List.replicate n false ++ [true] ∧ keyRefused st = !validKeyLen key.length ∧
      t.keyValid = validKeyLen key.length ∧ (validKeyLen key.length = true → s.Keyed t key) := by
  obtain ⟨k, hwrite, hk⟩ := runsTo_wrkey hp key
  have hidle : (s.afterKeySteps key k).phase = .idle := expandKey_phase _
  obtain ⟨polled, d, hcommand, hpolled⟩ := runsTo_command (s := s.afterWrkey key k) (t := s.afterKeySteps key k) hp
    (decodeCommand_of_encode (i := .keyExpand) rfl rfl) (completesTo_keyExpand _) hidle n
  have hread := runsTo_lw (s := (s.afterKeySteps key k).afterReads polled d) hidle 0x004
  rw [afterReads_afterReads] at hread
  refine ⟨s.afterKeySteps key k, polled, (s.afterKeySteps key k).statusWord, d, ?run, hidle, expandKey_reads _, hpolled, ?refused,
    keyValid_afterKeySteps s key k, fun hkey => ?keyed⟩
  case run =>
    rw [keyScript, List.append_assoc (wrkey key)]
    exact (hwrite.trans hcommand).trans hread
  case refused =>
    rw [keyRefused_statusWord, keyValid_afterKeySteps]
  case keyed =>
    have hlen : (s.afterWrkey key k).keyLen.toNat = key.length := by
      rw [toNat_keyLen_afterWrkey]
      rcases validKeyLen_cases hkey with h | h | h <;> omega
    obtain ⟨hvalid, hw, hnr, herr, hcode⟩ :=
      keyed_expandKey (s := (s.afterWrkey key k).accept 0x00000010) hkey hlen hk
    exact ⟨hvalid, hw, hnr, herr, hcode⟩

/-- Settles O54: the key steps write the key, expand it if its length is legal, and read KEY_VALID. -/
theorem keyProcedureExpandsTheKey : Obligations.KeyProcedureExpandsTheKey := by
  unfold Obligations.KeyProcedureExpandsTheKey
  intro s key polls rest hp hev
  obtain ⟨t, polled, st, d, hrun, hidle, hreads, hpolled, hrefused, hvalid, hkeyed⟩ := runsTo_keyScript hp key polls
  refine ⟨_, st, polled, hrun.runSteps_of_events hev, hidle, rfl, ?_, hpolled, hrefused, hvalid,
    fun hkey => ⟨(hkeyed hkey).w, (hkeyed hkey).nr⟩⟩
  rw [← hreads, List.append_assoc]
  rfl

end Sys2Proof.Machine

/-! ## The whole procedures (rules R270, R271 and R330) -/

namespace Sys2Proof.Machine

variable {s t : State} {m key : List Byte} {command : Word} {cipher : Schedule → Nat → Block → Block × Nat}
  {polls : Nat → Nat}

/-! ### What the passes read (rule R270) -/

theorem monotone_readsBefore (polls : Nat → Nat) : Monotone (readsBefore polls) :=
  monotone_nat_of_le_succ fun j => by rw [readsBefore_succ]; exact Nat.le_add_right _ _

/-- Reads of later passes do not move those of pass `j`. -/
theorem chunkReads_append {reads : List Word} {n j : Nat} (hreads : reads.length = readsBefore polls n) (hj : j < n)
    (later : List Word) : chunkReads polls (reads ++ later) j = chunkReads polls reads j := by
  have hpass : readsBefore polls j + (polls j + 5) ≤ reads.length := by
    rw [hreads, ← readsBefore_succ]
    exact monotone_readsBefore polls hj
  rw [chunkReads, chunkReads, List.drop_append_of_le_length (by omega), List.take_append_of_le_length]
  rw [List.length_drop]
  omega

/-- Pass `j` reads a value for each poll, and then the block. -/
theorem chunkReads_of_pass {reads polled : List Word} {j : Nat} (hreads : reads.length = readsBefore polls j)
    (hpolled : polled.length = polls j + 1) (b : Block) :
    chunkReads polls (reads ++ (polled ++ columns b)) j = columns b := by
  rw [chunkReads, ← List.append_assoc, List.drop_left' (by rw [List.length_append, hreads, hpolled])]
  rfl

/-! ### The passes, one after the other -/

/-- What passes of the loop keep: the core idle, the schedule, and the errors. -/
structure State.KeptByPasses (s t : State) : Prop where
  phase : t.phase = .idle
  schedule : s.SameSchedule t
  err : t.err = s.err
  errCode : t.errCode = s.errCode

/-- The first `n` passes of the loop, by induction on `n`: pass `j` reads the cipher of chunk `j`. -/
theorem runsTo_passes (hc : IsCipherCommand command cipher) (hp : s.phase = .idle) (hv : s.keyValid = true)
    (m : List Byte) (polls : Nat → Nat) (n : Nat) :
    ∃ t reads, RunsTo ((List.range n).flatMap fun j => chunkScript command (chunk m j) (polls j)) s t ∧
      s.KeptByPasses t ∧ t.reads = s.reads ++ reads ∧ reads.length = readsBefore polls n ∧
      ∀ j < n, chunkReads polls reads j = columns (cipher s.w s.nr.toNat (blockOfBytes (chunk m j))).1 := by
  induction n with
  | zero => exact ⟨s, [], runsTo_nil, ⟨hp, ⟨rfl, rfl, rfl, rfl⟩, rfl, rfl⟩, (List.append_nil _).symm, rfl, nofun⟩
  | succ n ih =>
    obtain ⟨t, reads, hrun, hkept, hreads, hlen, hchunks⟩ := ih
    obtain ⟨hidle, hsame, herr, hcode⟩ := hkept
    obtain ⟨out, hout⟩ : ∃ out, cipher t.w t.nr.toNat (blockOfBytes (chunk m n)) = out := ⟨_, rfl⟩
    obtain ⟨polled, d, hpass, hpolled⟩ :=
      runsTo_chunkScript hc hidle (hsame.keyValid.trans hv) (chunk m n) (polls n) hout
    have hpolls : polled.length = polls n + 1 := length_of_map_pollDone hpolled
    refine ⟨(t.afterCipher command out).afterReads (polled ++ columns out.1) d, reads ++ (polled ++ columns out.1), ?run,
      ⟨rfl, ⟨hsame.w, hsame.keyValid, hsame.nk, hsame.nr⟩, herr, hcode⟩, ?reads, ?length, fun j hj => ?chunk⟩
    case run =>
      rw [List.range_succ, List.flatMap_append, List.flatMap_singleton]
      exact hrun.trans hpass
    case reads =>
      rw [← List.append_assoc, ← hreads]
      rfl
    case length => simp [hlen, hpolls, columns, Nat.add_assoc]
    case chunk =>
      rcases Nat.lt_succ_iff_lt_or_eq.mp hj with h | rfl
      · rw [chunkReads_append hlen h, hchunks j h]
      · rw [chunkReads_of_pass hlen hpolls, ← hout, hsame.w, hsame.nr]

/-! ### The procedures -/

/-- The words that the passes read, as bytes, are the blocks of the chunks. -/
theorem flatMap_chunkReads {f : Nat → Block} {reads : List Word} {n : Nat}
    (h : ∀ j < n, chunkReads polls reads j = columns (f j)) :
    (List.range n).flatMap (fun j => (chunkReads polls reads j).flatMap bytesOfWord) = bytesOfBlocks f n :=
  List.flatMap_congr fun j hj => by rw [h j (List.mem_range.mp hj), flatMap_bytesOfWord_columns]

/-- The output that a procedure gives is the cipher of each chunk, under a legal key (rules R270 and R271). -/
theorem output_cases {out : List Byte}
    (h : (command = 0x00000030 ∧ ecbEncrypt m key = .output out) ∨ (command = 0x00000031 ∧ ecbDecrypt m key = .output out)) :
    validKeyLen key.length = true ∧ ∃ cipher, IsCipherCommand command cipher ∧
      out = bytesOfBlocks (cipherChunk cipher key m) (chunkCount m.length) := by
  cases hkey : validKeyLen key.length with
  | false =>
    obtain ⟨-, hout⟩ | ⟨-, hout⟩ := h
    · rw [ecbEncrypt_of_not_validKeyLen hkey] at hout; cases hout
    · rw [ecbDecrypt_of_not_validKeyLen hkey] at hout; cases hout
  | true =>
    refine ⟨rfl, ?_⟩
    obtain ⟨rfl, hout⟩ | ⟨rfl, hout⟩ := h
    · rw [ecbEncrypt_of_validKeyLen hkey] at hout
      exact ⟨encryptBlock, isCipherCommand_encBlock, (EcbResult.output.inj hout).symm⟩
    · by_cases hlen : m.length % 16 = 0
      · have hcount : chunkCount m.length = m.length / 16 := by unfold chunkCount; omega
        rw [ecbDecrypt_of_validKeyLen hkey hlen, ← hcount] at hout
        exact ⟨decryptBlock, isCipherCommand_decBlock, (EcbResult.output.inj hout).symm⟩
      · rw [ecbDecrypt_of_misaligned hkey hlen] at hout; cases hout

/-- Settles O56: the key steps install the schedule, which every pass keeps and uses for its chunk. -/
theorem ecbProcedureReturnsTheOutput : Obligations.EcbProcedureReturnsTheOutput := by
  unfold Obligations.EcbProcedureReturnsTheOutput
  intro s m key keyPolls polls command out hp hev hout
  obtain ⟨hkey, cipher, hc, rfl⟩ := output_cases hout
  obtain ⟨t, polled, st, d, hkeyRun, hidle, hkeyReads, hpolled, -, -, hkeyed⟩ := runsTo_keyScript hp key keyPolls
  obtain ⟨hvalid, hw, hnr, herr, hcode⟩ := hkeyed hkey
  obtain ⟨u, reads, hpasses, hkept, hreads, -, hchunks⟩ :=
    runsTo_passes (s := t.afterReads (polled ++ [st]) d) hc hidle hvalid m polls (chunkCount m.length)
  obtain ⟨hend, -, herr', hcode'⟩ := hkept
  have hrun : runSteps s.events.length s = .next { u with events := [] } := by
    rw [hev]
    exact (hkeyRun.trans hpasses).runSteps_of_events (hev.trans (List.append_nil _).symm)
  refine ⟨_, hrun, ⟨rfl, hend⟩, herr'.trans herr, hcode'.trans hcode, ?_⟩
  have hdrop : u.reads.drop (s.reads.length + keyReads keyPolls) = reads := by
    have hlen : (s.reads ++ (polled ++ [st])).length = s.reads.length + keyReads keyPolls := by
      simp [length_of_map_pollDone hpolled, keyReads]
    rw [hreads, State.afterReads, hkeyReads, List.drop_left' hlen]
  simp only [hdrop]
  refine flatMap_chunkReads fun j hj => ?_
  rw [hchunks j hj, cipherChunk, ← hw, ← hnr]
  rfl

end Sys2Proof.Machine

/-! ## Errors and the interrupt line (60_exceptions.md) -/

namespace Sys2Proof.Machine

variable {s t : State} {i : Instr}

/-! ### No traps (rule R290) -/

/-- Settles O5: every move of a step answers a next state: an instruction by one of its effects, and the others by
themselves. -/
theorem nothingStopsTheMachine : Obligations.NothingStopsTheMachine := by
  unfold Obligations.NothingStopsTheMachine
  have hexec (i : Instr) (s : State) : ∃ t, exec i s = .next t := (exec_effect i s).imp fun _ => And.left
  refine ⟨fun s => ?step, hexec⟩
  case step =>
    rcases step_cases s with ⟨i, -, h⟩ | ⟨-, h⟩ | ⟨-, h⟩ | ⟨-, h⟩
    · rw [h]; exact hexec i _
    all_goals exact ⟨_, h⟩

/-! ### Commands whose checks fail and commands whose checks pass (rules R294 and R298 to R300) -/

/-- Settles O25: the check of the schedule comes first. -/
theorem noScheduleMeansNoKeyError : Obligations.NoScheduleMeansNoKeyError := by
  unfold Obligations.NoScheduleMeansNoKeyError
  exact fun s i => exec_of_noKey

/-- A command whose checks pass leaves ERR and ERRCODE (rule R298). -/
theorem CommandEffect.errors_of_passed (he : CommandEffect s i t) (hpass : commandError s i = none) :
    t.err = s.err ∧ t.errCode = s.errCode := by
  rcases he.errors with hkept | ⟨code, hfail, -⟩
  · exact hkept
  · rw [hpass] at hfail; cases hfail

/-- Settles O49: the outcome of the checks decides between a recorded error and a completion. -/
theorem failedCommandsChangeNoData : Obligations.FailedCommandsChangeNoData := by
  unfold Obligations.FailedCommandsChangeNoData
  refine ⟨fun i s code _ hfail => ⟨?code, exec_of_commandError hfail⟩, fun i s hc hpass => ?passed, fun s => rfl⟩
  case code =>
    rintro rfl
    exact commandError_ne_noError s i hfail
  case passed =>
    obtain ⟨t, ht, he⟩ := exec_commandEffect s hc
    obtain ⟨herr, hcode⟩ := he.errors_of_passed hpass
    exact ⟨t, ht, herr, hcode, he.phase, he.done⟩

/-! ### The sources of the error codes (rules R291 to R297) -/

theorem validKeyLen_iff {len : Nat} : validKeyLen len = true ↔ len ∈ [16, 24, 32] := by
  simp [validKeyLen, or_assoc]

/-- The checks that can fail, each with its command and its code (rules R293 to R296). -/
inductive CommandFails (s : State) : Instr → ErrCode → Prop where
  | keyLen (hlen : validKeyLen s.keyLen.toNat = false) : CommandFails s .keyExpand .keyLen
  | noKey {i : Instr} (hk : s.keyValid = false)
    (hi : i ∈ [Instr.rkResetFwd, .rkResetBwd, .rkNextEnc, .rkNextDec, .encBlock, .decBlock] ∨ ∃ n, i = .rkLoad n) :
    CommandFails s i .noKey
  | cursorAtEnd (hv : s.keyValid = true) (hcur : s.cursor.toNat = s.nr.toNat + 1) : CommandFails s .rkNextEnc .cursor
  | cursorAtStart (hv : s.keyValid = true) (hcur : s.cursor = 0) : CommandFails s .rkNextDec .cursor
  | index {n : Nat} (hv : s.keyValid = true) (hn : s.nr.toNat < n) : CommandFails s (.rkLoad n) .rkIndex

/-- The check of rule R294 comes first: it fails, or the schedule is valid and the command's own check has failed. -/
theorem CommandFails.of_scheduleCheck {check : Option ErrCode} {code : ErrCode}
    (h : (if s.keyValid = false then some .noKey else check) = some code)
    (hi : i ∈ [Instr.rkResetFwd, .rkResetBwd, .rkNextEnc, .rkNextDec, .encBlock, .decBlock] ∨ ∃ n, i = .rkLoad n)
    (hown : s.keyValid = true → check = some code → CommandFails s i code) : CommandFails s i code := by
  rcases ite_eq_iff.mp h with ⟨hk, ⟨⟩⟩ | ⟨hk, hcheck⟩
  · exact .noKey hk hi
  · exact hown (eq_true_of_ne_false hk) hcheck

theorem commandFails_of_commandError {code : ErrCode} (h : commandError s i = some code) : CommandFails s i code := by
  cases i with
  | keyExpand =>
    obtain ⟨hlen, ⟨⟩⟩ := Option.ite_none_left_eq_some.mp h
    exact .keyLen (eq_false_of_ne_true (mt validKeyLen_iff.mp hlen))
  | rkResetFwd | rkResetBwd | encBlock | decBlock => exact .of_scheduleCheck h (.inl (by simp)) nofun
  | rkNextEnc =>
    refine .of_scheduleCheck h (.inl (by simp)) fun hv hcheck => ?_
    obtain ⟨hcur, ⟨⟩⟩ := Option.ite_none_right_eq_some.mp hcheck
    exact .cursorAtEnd hv hcur
  | rkNextDec =>
    refine .of_scheduleCheck h (.inl (by simp)) fun hv hcheck => ?_
    obtain ⟨hcur, ⟨⟩⟩ := Option.ite_none_right_eq_some.mp hcheck
    exact .cursorAtStart hv (BitVec.eq_of_toNat_eq hcur)
  | rkLoad n =>
    refine .of_scheduleCheck h (.inr ⟨n, rfl⟩) fun hv hcheck => ?_
    obtain ⟨hn, ⟨⟩⟩ := Option.ite_none_right_eq_some.mp hcheck
    exact .index hv hn
  | _ => cases h

/-- Settles O50: a new code is that of a failing check, of a write while BUSY, or of the write that clears ERR. -/
theorem errorCodesHaveTheirSources : Obligations.ErrorCodesHaveTheirSources := by
  unfold Obligations.ErrorCodesHaveTheirSources
  intro i s t h hne
  rcases (effect_of_exec h).errors_changed (.inr hne) with
    ⟨code, hfail, -, hcode⟩ | ⟨hp, hi, -, hcode⟩ | ⟨-, hcode, hp, off, v, hi, hoff, hv⟩ <;> rw [hcode]
  · cases commandFails_of_commandError hfail with
    | keyLen hlen => exact ⟨rfl, hlen⟩
    | noKey hk hi => exact ⟨hk, hi⟩
    | cursorAtEnd hv hcur => exact ⟨hv, .inl ⟨rfl, hcur⟩⟩
    | cursorAtStart hv hcur => exact ⟨hv, .inr ⟨rfl, hcur⟩⟩
    | index hv hn => exact ⟨hv, _, rfl, hn⟩
  · exact ⟨hp, hi⟩
  · exact ⟨off, v, hi, hoff, hv, hp⟩

/-! ### Transactions and STATUS (rules R85, R86 and R297) -/

/-- A write while idle follows the rule of the register at the aligned offset (rules R84 and R86). -/
theorem eq_writeReg_of_exec (hp : s.phase = .idle) {off a : BitVec 12} {v : Word} (hoff : off &&& 0xFFC = a)
    (h : exec (.hostWrite off v) s = .next t) : t = s.writeReg v (regOf a.toNat) := by
  subst hoff
  exact (Host.Outcome.next.inj h).symm.trans (writePort_of_idle s v _ hp)

theorem exec_hostWrite_of_busy (hp : s.phase = .busy) (off : BitVec 12) (v : Word) :
    exec (.hostWrite off v) s = .next s.recordBusyWrite :=
  congrArg Host.Outcome.next (writePort_of_busy s v _ hp)

/-- A read gives the host a value and changes no state of the core (rule R85). -/
theorem exec_hostRead_frame {off : BitVec 12} (h : exec (.hostRead off) s = .next t) :
    ∃ v n, t = { s with reads := s.reads ++ [v], draws := n } := by
  cases effect_of_exec h with
  | command hc => cases hc
  | read _ v n => exact ⟨v, n, rfl⟩

/-- The checks of the commands read neither ERR nor ERRCODE (rule R299). -/
theorem commandError_recordBusyWrite (s : State) (i : Instr) : commandError s.recordBusyWrite i = commandError s i := by
  cases i <;> rfl

/-- A check that has passed, and the ones after it. -/
theorem check_passed {p : Prop} [Decidable p] {code : ErrCode} {check : Option ErrCode}
    (h : (if p then some code else check) = none) : ¬ p ∧ check = none := by
  rcases ite_eq_iff.mp h with ⟨-, ⟨⟩⟩ | hpass
  exact hpass

theorem keyValid_of_check {check : Option ErrCode} (h : (if s.keyValid = false then some .noKey else check) = none) :
    s.keyValid = true ∧ check = none :=
  (check_passed h).imp_left eq_true_of_ne_false

/-- A command whose checks pass does the same with a write while BUSY recorded, and keeps the record (rule R297). -/
theorem exec_recordBusyWrite_of_passed (hc : i.isCommand = true) (hpass : commandError s i = none) :
    ∃ t, exec i s = .next t ∧ exec i s.recordBusyWrite = .next t.recordBusyWrite := by
  cases i with
  | keyExpand =>
    obtain ⟨hlen, -⟩ | ⟨-, ⟨⟩⟩ := ite_eq_iff.mp hpass
    have hvalid := validKeyLen_iff.mpr hlen
    exact ⟨_, exec_keyExpand hvalid, exec_keyExpand hvalid⟩
  | rkResetFwd =>
    obtain ⟨hv, -⟩ := keyValid_of_check hpass
    exact ⟨_, exec_rkResetFwd hv, exec_rkResetFwd hv⟩
  | rkResetBwd =>
    obtain ⟨hv, -⟩ := keyValid_of_check hpass
    exact ⟨_, exec_rkResetBwd hv, exec_rkResetBwd hv⟩
  | rkNextEnc =>
    obtain ⟨hv, hcheck⟩ := keyValid_of_check hpass
    obtain ⟨hcur, -⟩ := check_passed hcheck
    exact ⟨_, exec_rkNextEnc hv hcur, exec_rkNextEnc hv hcur⟩
  | rkNextDec =>
    obtain ⟨hv, hcheck⟩ := keyValid_of_check hpass
    obtain ⟨hcur, -⟩ := check_passed hcheck
    exact ⟨_, exec_rkNextDec hv (Nat.pos_of_ne_zero hcur), exec_rkNextDec hv (Nat.pos_of_ne_zero hcur)⟩
  | rkLoad n =>
    obtain ⟨hv, hcheck⟩ := keyValid_of_check hpass
    obtain ⟨hn, -⟩ := check_passed hcheck
    exact ⟨_, exec_rkLoad hv (Nat.le_of_not_lt hn), exec_rkLoad hv (Nat.le_of_not_lt hn)⟩
  | encBlock =>
    obtain ⟨hv, -⟩ := keyValid_of_check hpass
    exact ⟨_, exec_encBlock hv, exec_encBlock hv⟩
  | decBlock =>
    obtain ⟨hv, -⟩ := keyValid_of_check hpass
    exact ⟨_, exec_decBlock hv, exec_decBlock hv⟩
  | hostRead off => cases hc
  | hostWrite off v => cases hc
  | _ => exact ⟨_, rfl, rfl⟩

/-- Settles O46: the running command fails with its own error, which replaces the record, or completes and keeps it. -/
theorem busyWriteIsDiscardedAndRecorded : Obligations.BusyWriteIsDiscardedAndRecorded := by
  unfold Obligations.BusyWriteIsDiscardedAndRecorded
  refine ⟨fun s off v hp => exec_hostWrite_of_busy hp off v, fun s t u i hc ht hu => ?command, fun s t h => h,
    fun s t off _ h => ?read⟩
  case command =>
    change exec i s.recordBusyWrite = .next u at hu
    cases hcheck : commandError s i with
    | some code =>
      cases ht.symm.trans (exec_of_commandError hcheck)
      cases hu.symm.trans (exec_of_commandError ((commandError_recordBusyWrite s i).trans hcheck))
      exact .inr ⟨rfl, rfl⟩
    | none =>
      obtain ⟨herr, hcode⟩ := (commandEffect_of_exec hc ht).errors_of_passed hcheck
      obtain ⟨t', ht', hu'⟩ := exec_recordBusyWrite_of_passed hc hcheck
      cases ht.symm.trans ht'
      cases hu.symm.trans hu'
      exact .inl ⟨herr, hcode, rfl⟩
  case read =>
    obtain ⟨v, n, rfl⟩ := exec_hostRead_frame h
    exact ⟨rfl, rfl⟩

/-! ### The interrupt line (rules R302 and R303) -/

/-- After a completion the line is CTRL.IE. -/
theorem irq_of_done (hie : t.ie = s.ie) (hdone : t.done = true) : t.irq = s.ie := by
  rw [State.irq, hie, hdone, Bool.and_true]

theorem irq_of_not_done (hdone : s.done = false) : s.irq = false := by
  rw [State.irq, hdone, Bool.and_false]

/-- Settles O47: the completions set DONE, the acceptance and the write-1-to-clear drop it, and a write of CTRL sets IE. -/
theorem interruptLineFollowsDone : Obligations.InterruptLineFollowsDone := by
  unfold Obligations.InterruptLineFollowsDone
  refine ⟨rfl, fun s => Bool.and_eq_true_iff, fun i s t hc h => ?command, fun s t h => ?illegal,
    fun off v s t h => ⟨fun hp hoff => ?accept, fun hp hoff hv => ?clear, fun hp hoff => ?ctrl, fun hp => ?busy⟩,
    fun off s t h => ?read⟩
  case command =>
    have he := commandEffect_of_exec hc h
    exact irq_of_done he.sameHostRegs.ie he.done
  case illegal =>
    cases h
    exact irq_of_done rfl rfl
  case accept =>
    obtain rfl := eq_writeReg_of_exec hp hoff h
    exact irq_of_not_done rfl
  case clear =>
    obtain rfl := eq_writeReg_of_exec hp hoff h
    exact irq_of_not_done (if_pos hv)
  case ctrl =>
    obtain rfl := eq_writeReg_of_exec hp hoff h
    rfl
  case busy =>
    rw [exec_hostWrite_of_busy hp] at h
    cases h
    rfl
  case read =>
    obtain ⟨v, n, rfl⟩ := exec_hostRead_frame h
    rfl

end Sys2Proof.Machine

/-! ## Reset (70_reset_and_hazards.md) -/

namespace Sys2Proof.Machine

variable {s : State}

/-- A step that samples `rst` high takes the event off and resets the core; the lost transaction does not matter (rules R320
and R321). -/
theorem step_of_reset {lost : Option Transaction} {rest : List Event} (h : s.events = .reset lost :: rest) :
    step s = .next ({ s with events := rest } : State).takeReset := by
  simp [step, turn_of_reset s h, popEvent_of_cons h]

/-- After a reset the core's turn does nothing (rule R322). -/
theorem step_takeReset_of_coreTurn {rest : List Event} (h : s.events = .coreTurn :: rest) :
    step s.takeReset = .next ({ s with events := rest } : State).takeReset := by
  have hmove : s.takeReset.coreMove = .rest := coreMove_of_idle s.takeReset rfl
  have hturn : s.takeReset.turn = .rest := (turn_of_coreTurn s.takeReset (.inr ⟨rest, h⟩)).trans hmove
  rw [step_of_rest hturn, popEvent_of_cons (s := s.takeReset) h]
  rfl

/-- Settles O1: the step is `takeReset`, whose fields are those of `State.reset`; a register array holds its reset word at
every index. -/
theorem resetEventGivesResetValues : Obligations.ResetEventGivesResetValues := by
  unfold Obligations.ResetEventGivesResetValues
  intro s lost rest hev
  have hkey (m : Fin 8) : State.reset.key[m] = 0 := Vector.getElem_replicate m.isLt
  have hblock (j : Fin 4) : State.reset.block[j] = 0 := Vector.getElem_replicate j.isLt
  have hrk (j : Fin 4) : State.reset.rk[j] = 0 := Vector.getElem_replicate j.isLt
  have hw (j : Fin 60) : State.reset.w[j] = 0 := getElem_clearedSchedule j
  exact ⟨_, step_of_reset hev, rfl, rfl, rfl, rfl, rfl, rfl, rfl, rfl, rfl, rfl, rfl, hkey, fun j => ⟨hblock j, hrk j⟩,
    rfl, rfl, rfl, hw, irq_of_not_done rfl, rfl⟩

/-- Settles O2: the first step resets the core, and the idle core then rests on its turn. -/
theorem resetAbandonsTheRunningCommand : Obligations.ResetAbandonsTheRunningCommand := by
  unfold Obligations.ResetAbandonsTheRunningCommand
  intro s lost rest hev
  have hreset := step_of_reset hev
  refine ⟨hreset, ?_⟩
  calc runSteps 2 s
      = runSteps 1 ({ s with events := .coreTurn :: rest } : State).takeReset := runSteps_succ_of_step hreset 1
    _ = step ({ s with events := .coreTurn :: rest } : State).takeReset := runSteps_one _
    _ = .next ({ s with events := rest } : State).takeReset := step_takeReset_of_coreTurn rfl

/-- Settles O3: `State.reset` is what a reset makes of itself. -/
theorem resetMeetsTheInvariant : Obligations.ResetMeetsTheInvariant := by
  unfold Obligations.ResetMeetsTheInvariant
  exact takeReset_inv State.reset

end Sys2Proof.Machine
